-- ==== Sys2Proof/Word.lean ====
section
/-! DEFINITION. The widths of the block's values: `REG_W` = 32, bytes of a stream, 16-bit dimensions (spec/00_scope.md R11). -/

namespace Sys2Proof

/-- A register, a packet word, a picosecond operand, a clock rate: `REG_W` = `PS_W` = `KHZ_W` = 32 bits (R11). -/
abbrev Word := BitVec 32

/-- A byte of a stream buffer (R97, R104). -/
abbrev Byte := BitVec 8

/-- A 16-bit value: the header field ARG, and the width and height of XFER, `DIM_W` = 16 (R11, R101). -/
abbrev Half := BitVec 16

end Sys2Proof
end

