-- ==== Sys2Proof/Config.lean ====
section
/-! DEFINITION. What an instance of the block fixes (spec/00_scope.md R11) and the free values of what the spec leaves open
(spec/93_implementation_defined.md). The default of `CFG_LAYOUT` stands in Sys2Proof/Machine/Layout.lean. -/

namespace Sys2Proof

/-- `MAX_DIV`, the largest clock divider: "fixed at 2 for this hardware generation" (R11, R21). -/
abbrev Config.maxDiv : Nat := 2

/-- `CH_STRIDE`, the distance in bytes between the two channel register groups: decimal 24 (R11, R17). -/
abbrev Config.chStride : Nat := 24

/-- The value codes of a field of CONFIG(n) that distinguishes four cases, in the order of the table of R95. -/
structure FourCodes where
  code0 : Nat
  code1 : Nat
  code2 : Nat
  code3 : Nat
deriving DecidableEq, Repr

/-- `CFG_LAYOUT`: where the fields of CONFIG(n) lie, what they are coded as, and the constant bits CONFIGURE writes
(spec/30_encoding.md R95; OPEN with a default, R11, D15). -/
structure CfgLayout where
  /-- Lowest bit of PARMODE. -/
  parmodeAt : Nat
  /-- The bit GRAN (R99). -/
  granAt : Nat
  /-- Lowest bit of DATATYPE. -/
  datatypeAt : Nat
  /-- Lowest bit of CYCLEFMT. -/
  cyclefmtAt : Nat
  /-- PARMODE of 8, 9, 12, 16 lines. -/
  parmode : FourCodes
  /-- DATATYPE of a depth of 12, 16, 18, 24. -/
  datatype : FourCodes
  /-- CYCLEFMT of "1:1", "2:1", "3:1", "3:2". -/
  cyclefmt : FourCodes
  /-- The "fixed polarity bits". -/
  fixedBits : Word
deriving DecidableEq, Repr

/-- The parameters of one instance that the spec leaves OPEN (R11). They are held in State, where no step changes them,
so that a statement about every state is a statement about every value of them (log 6). -/
structure Params where
  /-- `N_REQ - 1`: the requesters beside requester 0 ("at least 1", R11, D4). -/
  otherPorts : Nat
  /-- `REV`, the value read from REVISION (R35, D47). -/
  rev : Word
  /-- `CFG_LAYOUT` (R95, D15). -/
  layout : CfgLayout
deriving DecidableEq, Repr

/-- `N_REQ`, the number of command ports: at least 1 (R11). -/
abbrev Params.nReq (p : Params) : Nat := p.otherPorts + 1

/-- A draw of 32 bits that no rule constrains: a register never written since reset (R52, U7), a read of a write port
(R66), a read of READ that the state names no answer for (R45, U8). DESIGN CHOICE, logs 3, 5, 7. -/
opaque Config.freeWord : Nat → Word

/-- A draw of one bit: a power acquire that the state names no answer for (R45, U9); one-bit fields of an unsolved
timing (U7). DESIGN CHOICE, logs 4, 5. -/
opaque Config.freeBool : Nat → Bool

/-- A draw of a natural number: the rounded values of an unsolved timing (U7). DESIGN CHOICE, log 4. -/
opaque Config.freeNat : Nat → Nat

/-- `REV` of the instance that State.reset stands for (R35, N1). DESIGN CHOICE, log 6. -/
opaque Config.rev : Word

/-- `N_REQ - 1` of the instance that State.reset stands for (R11, N26). DESIGN CHOICE, log 6. -/
opaque Config.otherPorts : Nat

end Sys2Proof
end

