-- ==== Sys2Proof/Syntax.lean ====
section
/-! DEFINITION. The fourteen operations of the block (spec/30_encoding.md R100, spec/opcode_table.json) and their operands (R105). -/

namespace Sys2Proof

/-- One of the `N_CH` = 2 chip-select channels, the index `n` of a rule (spec/00_scope.md R11). -/
inductive Channel where
  | ch0
  | ch1
deriving DecidableEq, Repr

/-- The channel index as a number. -/
def Channel.num : Channel → Nat
  | .ch0 => 0
  | .ch1 => 1

/-- One value for each of the ten timing fields, in the order of spec/10_state.md R22. -/
structure Ten (α : Type) where
  csOn : α
  csOff : α
  weOn : α
  weOff : α
  weCycle : α
  reOn : α
  reOff : α
  reCycle : α
  access : α
  csPulse : α
deriving DecidableEq, Repr

/-- A TimingRequirement: ten unsigned picosecond values (R22). -/
abbrev TimingReq := Ten Word

/-- A completion callback and its argument, two opaque 32-bit values (R31). -/
structure Callback where
  cb : Word
  ctx : Word
deriving DecidableEq, Repr

/-- An operation with its operands as R105 assembles them. -/
inductive Instr where
  /-- LOCK (R221). -/
  | lock
  /-- UNLOCK (R222). -/
  | unlock
  /-- ENABLE n (R224). -/
  | enable (n : Channel)
  /-- DISABLE (R228). -/
  | disable
  /-- SETCLK rate_khz (R130). -/
  | setclk (rateKhz : Word)
  /-- SETREQ n and ten picosecond values (R131). -/
  | setreq (n : Channel) (req : TimingReq)
  /-- SETFMT n, depth, lines (R132). -/
  | setfmt (n : Channel) (depth lines : Byte)
  /-- SETTE flag (R133). -/
  | sette (flag : Bool)
  /-- CONFIGURE n, depth, lines (R147). -/
  | configure (n : Channel) (depth lines : Byte)
  /-- SOLVE n (R175). -/
  | solve (n : Channel)
  /-- WRCMD bytes (R195); the operand `len` is the length of the buffer. -/
  | wrcmd (bytes : List Byte)
  /-- WRDATA bytes (R196). -/
  | wrdata (bytes : List Byte)
  /-- RDDATA len (R198). -/
  | rddata (len : Half)
  /-- XFER width, height and, when `has_cb` = 1, (cb, ctx) (R204). -/
  | xfer (width height : Half) (callback : Option Callback)
deriving DecidableEq, Repr

end Sys2Proof
end

