-- ==== Sys2Proof/Machine/Layout.lean ====
section
/-! DEFINITION. The register address map (spec/10_state.md R34, spec/20_memory.md R60 to R64) and the default CONFIG(n)
layout (spec/30_encoding.md R95). -/

namespace Sys2Proof.Machine

/-- The nineteen registers of the block (R34). -/
inductive Reg where
  | revision
  | control
  | pixelCnt
  | cmd
  | param
  | data
  | read
  | config (n : Channel)
  | onoffTime (n : Channel)
  | cycleTime (n : Channel)
  | dataCycle1 (n : Channel)
  | dataCycle2 (n : Channel)
  | dataCycle3 (n : Channel)
deriving DecidableEq, Repr

/-- `EA(REG, n) = base_offset(REG) + 24 * n`, the only address computation of the block (R62). -/
def channelOffset (base : Nat) (n : Channel) : Nat := base + Config.chStride * n.num

/-- The byte offset of a register (R34, R61). -/
def Reg.offset : Reg → Nat
  | .revision => 0x000
  | .control => 0x040
  | .pixelCnt => 0x044
  | .cmd => 0x04c
  | .param => 0x050
  | .data => 0x054
  | .read => 0x058
  | .config n => channelOffset 0x060 n
  | .onoffTime n => channelOffset 0x064 n
  | .cycleTime n => channelOffset 0x068 n
  | .dataCycle1 n => channelOffset 0x06c n
  | .dataCycle2 n => channelOffset 0x070 n
  | .dataCycle3 n => channelOffset 0x074 n

/-- The six registers of one channel group. -/
def channelRegs (n : Channel) : List Reg :=
  [.config n, .onoffTime n, .cycleTime n, .dataCycle1 n, .dataCycle2 n, .dataCycle3 n]

/-- Every register the map lists, by rising offset. -/
def allRegs : List Reg :=
  [.revision, .control, .pixelCnt, .cmd, .param, .data, .read] ++ channelRegs .ch0 ++ channelRegs .ch1

/-- The register at a byte offset, if the map lists one; every other offset holds no register of this block (R64). -/
def Reg.ofOffset (off : Nat) : Option Reg := allRegs.find? (fun r => r.offset == off)

/-- The default `CFG_LAYOUT` (R95): PARMODE 1:0, GRAN 4, DATATYPE 6:5, CYCLEFMT 10:9, constant 0x00300000. PRESUMED by the
spec itself ("from general knowledge, not in source"), log 19. -/
def defaultLayout : CfgLayout :=
  { parmodeAt := 0, granAt := 4, datatypeAt := 5, cyclefmtAt := 9,
    parmode := ⟨0, 1, 2, 3⟩, datatype := ⟨0, 1, 2, 3⟩, cyclefmt := ⟨0, 1, 2, 3⟩,
    fixedBits := 0x00300000#32 }

/-- The parameters of the instance that State.reset stands for (R11); DESIGN CHOICE, log 6. -/
def defaultParams : Params :=
  { otherPorts := Config.otherPorts, rev := Config.rev, layout := defaultLayout }

end Sys2Proof.Machine
end

