-- ==== Sys2Proof/Machine/State.lean ====
section
/-! DEFINITION. The state of one block instance (spec/10_state.md R20), as plain data, and its value after reset (R52). -/

namespace Sys2Proof.Machine

/-- One value for each of the two channels. -/
structure PerChannel (α : Type) where
  ch0 : α
  ch1 : α
deriving DecidableEq, Repr

/-- The value of channel `n`. -/
def PerChannel.get {α : Type} (p : PerChannel α) : Channel → α
  | .ch0 => p.ch0
  | .ch1 => p.ch1

/-- Replace the value of channel `n` and leave the other channel's. -/
def PerChannel.set {α : Type} (p : PerChannel α) (n : Channel) (a : α) : PerChannel α :=
  match n with
  | .ch0 => { p with ch0 := a }
  | .ch1 => { p with ch1 := a }

/-- The status of a response (spec/60_exceptions.md R251). -/
inductive Status where
  | ok
  | unsupportedFormat
  | unsupportedRatio
  | timingUnsatisfiable
  | transferAlreadyPending
  | misalignedLength
  | unsupportedParallelMode
  | powerResourceUnavailable
  | handlerRegistrationFailed
  | illegalCommand
deriving DecidableEq, Repr

/-- The ClockContext (R21). Its other field, `clk.max_div`, is hardwired to `MAX_DIV` and is read as Config.maxDiv. -/
structure ClockContext where
  /-- `clk.period_ps`, at least 1 in every reachable state. -/
  periodPs : Nat
deriving DecidableEq, Repr

/-- The BusFormat request of a channel (R23). -/
structure BusFormat where
  depth : Byte
  lines : Byte
deriving DecidableEq, Repr

/-- The SolvedTiming of a channel (R25); with `converted` false no rule reads the other fields. -/
structure SolvedTiming where
  converted : Bool
  /-- The chosen divider, 1 or 2. -/
  div : Nat
  wordA : Word
  wordB : Word
  /-- The granularity bit, `div - 1`. -/
  gran : BitVec 1
  /-- The ten picosecond fields rounded up to a multiple of the accepted tick (D13). -/
  rounded : Ten Nat
deriving DecidableEq, Repr

/-- A parallel mode: 8, 9, 12 or 16 lines (R26). -/
inductive ParMode where
  | m8
  | m9
  | m12
  | m16
deriving DecidableEq, Repr

/-- The registers that store a value (R36, R37, R40 to R43; 20_memory.md R67). REVISION reads as a parameter and the
ports CMD, PARAM, DATA, READ "store nothing" (R35, R38, R39). -/
structure RegFile where
  control : Word
  pixelCnt : Word
  config : PerChannel Word
  onoffTime : PerChannel Word
  cycleTime : PerChannel Word
  dataCycle1 : PerChannel Word
  dataCycle2 : PerChannel Word
  dataCycle3 : PerChannel Word
deriving DecidableEq, Repr

/-- An output event (R44). -/
inductive Event where
  | regW (off : Nat) (v : Word)
  | regR (off : Nat) (v : Word)
  | powerAcquire (ok : Bool)
  | powerRelease
  | handlerRegister
  | handlerUnregister
  | mgrSetTimings (n : Channel)
  | mgrDisable
  | callback (cb ctx : Word)
  | resp (r : Nat) (status : Status) (bytes : List Byte)
deriving DecidableEq, Repr

/-- What happens next at the block, chosen by the environment and by the order of service, which the spec leaves open
(20_memory.md R75; 93 U5, U10). DESIGN CHOICE, log 1. -/
inductive Turn where
  /-- The block takes the next packet from requester `r`'s port (R75). -/
  | serve (r : Nat)
  /-- The grant step picks the waiter `w` (44_bus_controller.md R221). -/
  | grant (w : Nat)
  /-- One occurrence of the frame-done condition (43_transfer_engine.md R207). -/
  | frameDone
  /-- The reset event (70_reset_and_hazards.md R290). -/
  | reset
deriving DecidableEq, Repr

/-- The state of one block instance. The fields down to `trace` are the tuple of R20; the fields after it are the model's
own: the parameters, the inputs that have yet to come, and a counter of draws. -/
structure State where
  /-- `clk` (R21): none is unloaded. -/
  clk : Option ClockContext
  /-- `req[n]` (R22). -/
  req : PerChannel (Option TimingReq)
  /-- `fmt[n]` (R23). -/
  fmt : PerChannel (Option BusFormat)
  /-- `te_active` (R24). -/
  teActive : Bool
  /-- `solved[n]` (R25). -/
  solved : PerChannel SolvedTiming
  /-- `par_mode` (R26). -/
  parMode : Option ParMode
  /-- `owner` (R27): none is a free lock. -/
  owner : Option Nat
  /-- `enabled` (R28). -/
  enabled : Bool
  /-- `handler_registered` (R29). -/
  handlerRegistered : Bool
  /-- `power_refs` (R30). -/
  powerRefs : Nat
  /-- `xfer_pending` (R31). -/
  xferPending : Bool
  /-- `pending_cb` (R31). -/
  pendingCb : Option Callback
  /-- `fault`, sticky (R32). -/
  fault : Bool
  /-- `waiting` (R33), a set of requesters, held strictly rising so that equal sets are equal data. -/
  waiting : List Nat
  /-- The storage of the register file (R34). -/
  regs : RegFile
  /-- `trace` (R44), oldest first. -/
  trace : List Event
  /-- Model: the parameters of the instance (00_scope.md R11); no step changes them. -/
  params : Params
  /-- Model: the requester whose packet is being executed; a packet's requester is its port (30_encoding.md R101). -/
  issuer : Nat
  /-- Model: the words each requester has yet to present at its port (R101); a port beyond the list holds none. -/
  ports : List (List Word)
  /-- Model: what happens next, in order. -/
  schedule : List Turn
  /-- Model: the next values of `env.power_ok` (R45); a free value once they are used up. -/
  powerAnswers : List Bool
  /-- Model: the next values of `env.read_value` (R45); a free value once they are used up. -/
  readAnswers : List Word
  /-- Model: how many free values have been drawn. -/
  draws : Nat
deriving DecidableEq, Repr

/-- Reasons the machine stops because the turn the schedule asks for is no transition of the block in this state.
Every one is SAFE: the block has no such transition, so no behaviour of it is lost (log 10). -/
inductive Fault where
  /-- A `serve` turn names a port that the instance does not have: ids are 0 to `N_REQ - 1` (R11, D4). Raised by step. -/
  | noSuchPort
  /-- A `serve` turn names a requester in `waiting`: it "issues nothing else" (R33). Raised by step. -/
  | requesterWaiting
  /-- A `serve` turn names a port with no packet, or with fewer payload words than the header announces (R107): the
  block waits for it. Raised by step. -/
  | packetNotPresent
  /-- A `grant` turn while the lock is held: the grant step is "possible whenever owner has no value" (R221). This is the
  stuck lock of R223 too. Raised by the grant step. -/
  | lockHeld
  /-- A `grant` turn names a requester that is not in `waiting` (R221). Raised by the grant step. -/
  | notWaiting
deriving DecidableEq, Repr

/-- Reasons the model refuses: 93_implementation_defined.md names the behaviour unspecified with the treatment `refuse`.
Every one is SAFE: the model stops where the hardware would go on in a way the spec does not give. -/
inductive Refusal where
  /-- The operation has no meaning in this model. Raised by no arm of exec in this version. -/
  | notModelled (mnemonic : String)
  /-- SETCLK with `rate_khz` = 0 or above 10^9 (R130, U1). Raised by SETCLK. -/
  | clockRateUnspecified
  /-- The holder issues SOLVE or ENABLE with `clk`, `req[n]` or (ENABLE) `fmt[n]` never loaded since reset (R136, U2).
  Raised by SOLVE and ENABLE. -/
  | parameterUnloaded
  /-- The holder issues WRCMD, WRDATA or RDDATA while `par_mode` has no value (R191, U3). Raised by the streams. -/
  | noParallelMode
  /-- RegRead or RegWrite at an offset the map does not list (R64). Raised by the offset forms of the two primitives,
  which no operation calls with such an offset. -/
  | unlistedOffset (off : Nat)
deriving DecidableEq, Repr

/-- A SolvedTiming that holds nothing: `converted` is 0 and every other field is a free value (R52, U7), for the draws
`d` (divider), `a`, `b` (words), `g` (granularity) and ten from `k`. DESIGN CHOICE, log 4. -/
def unsolvedTiming (d a b g k : Nat) : SolvedTiming :=
  { converted := false,
    div := if Config.freeBool d then 2 else 1,
    wordA := Config.freeWord a, wordB := Config.freeWord b,
    gran := BitVec.ofBool (Config.freeBool g),
    rounded :=
      { csOn := Config.freeNat k, csOff := Config.freeNat (k + 1), weOn := Config.freeNat (k + 2),
        weOff := Config.freeNat (k + 3), weCycle := Config.freeNat (k + 4), reOn := Config.freeNat (k + 5),
        reOff := Config.freeNat (k + 6), reCycle := Config.freeNat (k + 7), access := Config.freeNat (k + 8),
        csPulse := Config.freeNat (k + 9) } }

/-- The register file after reset (R52): CONTROL is `CONTROL_RESET` = 0 and every other register an unspecified value,
"fixed from reset until written" (U7), the draws from `d`. DESIGN CHOICE, log 3. -/
def resetRegs (d : Nat) : RegFile :=
  { control := 0,
    config := ⟨Config.freeWord d, Config.freeWord (d + 1)⟩,
    onoffTime := ⟨Config.freeWord (d + 2), Config.freeWord (d + 3)⟩,
    cycleTime := ⟨Config.freeWord (d + 4), Config.freeWord (d + 5)⟩,
    dataCycle1 := ⟨Config.freeWord (d + 6), Config.freeWord (d + 7)⟩,
    dataCycle2 := ⟨Config.freeWord (d + 8), Config.freeWord (d + 9)⟩,
    dataCycle3 := ⟨Config.freeWord (d + 10), Config.freeWord (d + 11)⟩,
    pixelCnt := Config.freeWord (d + 12) }

/-- The table of R52, for an instance with parameters `p`, the draws from `d` on, and no input. -/
def State.afterReset (p : Params) (d : Nat) : State :=
  { clk := none, req := ⟨none, none⟩, fmt := ⟨none, none⟩, teActive := false,
    solved := ⟨unsolvedTiming (d + 13) (d + 15) (d + 17) (d + 19) (d + 21),
      unsolvedTiming (d + 14) (d + 16) (d + 18) (d + 20) (d + 31)⟩,
    parMode := none, owner := none, enabled := false, handlerRegistered := false, powerRefs := 0,
    xferPending := false, pendingCb := none, fault := false, waiting := [],
    regs := resetRegs d, trace := [],
    params := p, issuer := 0, ports := [], schedule := [], powerAnswers := [], readAnswers := [],
    draws := d + 41 }

/-- The machine right after reset, with no packet presented and nothing scheduled (R52, R293). -/
def State.reset : State := State.afterReset defaultParams 0

end Sys2Proof.Machine
end

