-- ==== Sys2Proof/Machine/Flags.lean ====
section
/-! DEFINITION. The one-bit flags of the block (spec/10_state.md R47) and what sets and clears each: `converted` per channel,
`xfer_pending`, `handler_registered`, `enabled`, the sticky `fault`, and the loaded bit `te_active` (R24). The block has no
condition codes. -/

namespace Sys2Proof.Machine

/-- `solved[n].converted`, read by nothing but an observer (R47). -/
def State.converted (s : State) (n : Channel) : Bool := (s.solved.get n).converted

/-- `solved[n].converted <- 0` (R134, R176). The other fields then "hold no value" (R25) and are any value (93 U7): fourteen
fresh draws. DESIGN CHOICE, log 25. -/
def clearConverted (n : Channel) (s : State) : State :=
  { s with
    solved := s.solved.set n (unsolvedTiming s.draws (s.draws + 1) (s.draws + 2) (s.draws + 3) (s.draws + 4)),
    draws := s.draws + 14 }

/-- `xfer_pending <- b`. -/
def setXferPending (b : Bool) (s : State) : State := { s with xferPending := b }

/-- `handler_registered <- b`. -/
def setHandlerRegistered (b : Bool) (s : State) : State := { s with handlerRegistered := b }

/-- `enabled <- b`. -/
def setEnabled (b : Bool) (s : State) : State := { s with enabled := b }

/-- `fault <- 1`; only reset clears it (R32). -/
def setFault (s : State) : State := { s with fault := true }

/-- `te_active <- b`. -/
def setTeActive (b : Bool) (s : State) : State := { s with teActive := b }

end Sys2Proof.Machine
end

