-- ==== Sys2Proof/WellFormed.lean ====
section
/-! DEFINITION. Which terms of Instr stand for an operation a packet can carry. -/

namespace Sys2Proof

/-- A stream buffer whose length fits the 16-bit header field ARG (spec/30_encoding.md R101, R105; 0 to 65535). -/
def bufferFits (bytes : List Byte) : Bool := decide (bytes.length < 65536)

/-- Every operand has a value the encoding admits. Only the length of a stream buffer needs a check: every other
operand's type holds exactly the values of its field (R105). -/
def Instr.wf : Instr → Bool
  | .lock => true
  | .unlock => true
  | .enable _ => true
  | .disable => true
  | .setclk _ => true
  | .setreq _ _ => true
  | .setfmt _ _ _ => true
  | .sette _ => true
  | .configure _ _ _ => true
  | .solve _ => true
  | .wrcmd bytes => bufferFits bytes
  | .wrdata bytes => bufferFits bytes
  | .rddata _ => true
  | .xfer _ _ _ => true

end Sys2Proof
end

