-- ==== Sys2Proof/Decode.lean ====
section
/-! DEFINITION. Command packets: the opcode map and the decoder, total on any words, then the encoder, written from the
same tables (spec/30_encoding.md Part B; the whole encoding is the spec's own decision D1). -/

namespace Sys2Proof

/-! ## The opcode map -/

/-- The fourteen rows of the opcode table (R103), without operands. -/
inductive Op where
  | lock | unlock | enable | disable | setclk | setreq | setfmt | sette | configure | solve | wrcmd | wrdata | rddata | xfer
deriving DecidableEq, Repr

/-- A row of R103: `h` selects the operation when `h AND mask = pattern`. -/
structure OpRow where
  op : Op
  pattern : Word
  mask : Word
deriving DecidableEq, Repr

/-- The table of R103, in its order. -/
def opTable : List OpRow :=
  [ ⟨.lock,      0x01000000#32, 0xFFFFFFFF#32⟩,
    ⟨.unlock,    0x02000000#32, 0xFFFFFFFF#32⟩,
    ⟨.enable,    0x03000000#32, 0xFFFEFFFF#32⟩,
    ⟨.disable,   0x04000000#32, 0xFFFFFFFF#32⟩,
    ⟨.setclk,    0x10000000#32, 0xFFFFFFFF#32⟩,
    ⟨.setreq,    0x11000000#32, 0xFFFEFFFF#32⟩,
    ⟨.setfmt,    0x12000000#32, 0xFFFE0000#32⟩,
    ⟨.sette,     0x13000000#32, 0xFFFFFFFE#32⟩,
    ⟨.configure, 0x20000000#32, 0xFFFE0000#32⟩,
    ⟨.solve,     0x21000000#32, 0xFFFEFFFF#32⟩,
    ⟨.wrcmd,     0x30000000#32, 0xFFFF0000#32⟩,
    ⟨.wrdata,    0x31000000#32, 0xFFFF0000#32⟩,
    ⟨.rddata,    0x32000000#32, 0xFFFF0000#32⟩,
    ⟨.xfer,      0x33000000#32, 0xFFFFFFFE#32⟩ ]

/-- The operation a header word selects, if a row matches (R103, R108). -/
def selectOp (h : Word) : Option Op :=
  (opTable.find? (fun row => h &&& row.mask == row.pattern)).map OpRow.op

/-! ## Header fields and payload (R101, R104, R105) -/

/-- The field ARG, bits 15:0. -/
def headerArg (h : Word) : Half := h.extractLsb' 0 16

/-- The field CH, bit 16, as a channel. -/
def headerChannel (h : Word) : Channel := if h.getLsbD 16 then .ch1 else .ch0

/-- Bits 15:8 of the header: `depth` of SETFMT and CONFIGURE. -/
def headerDepth (h : Word) : Byte := h.extractLsb' 8 8

/-- Bits 7:0 of the header: `lines` of SETFMT and CONFIGURE. -/
def headerLines (h : Word) : Byte := h.extractLsb' 0 8

/-- Bit 0 of the header: `flag` of SETTE, `has_cb` of XFER. -/
def headerFlag (h : Word) : Bool := h.getLsbD 0

/-- `Pk`, payload word k. -/
def payloadWord (p : List Word) (k : Nat) : Word := p.getD k 0

/-- The bytes of a payload word: byte i of the buffer is bits `8*(i mod 4)+7 : 8*(i mod 4)` of word `i div 4` (R104). -/
def wordBytes (w : Word) : List Byte :=
  [w.extractLsb' 0 8, w.extractLsb' 8 8, w.extractLsb' 16 8, w.extractLsb' 24 8]

/-- All bytes of a payload, the buffer first and then the padding. -/
def payloadBytes (p : List Word) : List Byte := p.flatMap wordBytes

/-- "The bytes of the last word beyond `len` must be zero in a request" (R104). -/
def paddingZero (len : Nat) (p : List Word) : Bool := ((payloadBytes p).drop len).all (· == 0)

/-- How many payload words follow a header (R102, R107). -/
def payloadLength (op : Op) (h : Word) : Nat :=
  match op with
  | .setclk => 1
  | .setreq => 10
  | .xfer => 3
  | .wrcmd => ((headerArg h).toNat + 3) / 4
  | .wrdata => ((headerArg h).toNat + 3) / 4
  | .lock => 0
  | .unlock => 0
  | .enable => 0
  | .disable => 0
  | .setfmt => 0
  | .sette => 0
  | .configure => 0
  | .solve => 0
  | .rddata => 0

/-! ## The decoder -/

/-- Why a packet is no command (R108, R260). -/
inductive Illegal where
  /-- No row of R103 matches the header: an unassigned OPC, or a bit set where the row's mask fixes zero. -/
  | header
  /-- A padding byte of a stream buffer is not zero. -/
  | padding
  /-- An XFER with `has_cb` = 0 has a callback word that is not zero. -/
  | callbackWords
deriving DecidableEq, Repr

/-- What the words at a command port begin with. -/
inductive Decoded where
  /-- A legal operation, and the words after its packet. -/
  | instr (i : Instr) (rest : List Word)
  /-- An illegal packet, and the words after what it consumes (R108). -/
  | illegal (why : Illegal) (rest : List Word)
  /-- The packet is not there yet: no header, or fewer payload words than its header announces. -/
  | incomplete
deriving DecidableEq, Repr

/-- The ten fields of SETREQ, P0 to P9 (R105). -/
def decodeReq (p : List Word) : TimingReq :=
  { csOn := payloadWord p 0, csOff := payloadWord p 1, weOn := payloadWord p 2, weOff := payloadWord p 3,
    weCycle := payloadWord p 4, reOn := payloadWord p 5, reOff := payloadWord p 6, reCycle := payloadWord p 7,
    access := payloadWord p 8, csPulse := payloadWord p 9 }

/-- Operand assembly (R105) and the payload checks of R108, for a header that selects `op` and its payload `p`. -/
def decodeOperands (op : Op) (h : Word) (p : List Word) : Except Illegal Instr :=
  match op with
  | .lock => .ok .lock
  | .unlock => .ok .unlock
  | .enable => .ok (.enable (headerChannel h))
  | .disable => .ok .disable
  | .setclk => .ok (.setclk (payloadWord p 0))
  | .setreq => .ok (.setreq (headerChannel h) (decodeReq p))
  | .setfmt => .ok (.setfmt (headerChannel h) (headerDepth h) (headerLines h))
  | .sette => .ok (.sette (headerFlag h))
  | .configure => .ok (.configure (headerChannel h) (headerDepth h) (headerLines h))
  | .solve => .ok (.solve (headerChannel h))
  | .wrcmd =>
    if paddingZero (headerArg h).toNat p then .ok (.wrcmd ((payloadBytes p).take (headerArg h).toNat))
    else .error .padding
  | .wrdata =>
    if paddingZero (headerArg h).toNat p then .ok (.wrdata ((payloadBytes p).take (headerArg h).toNat))
    else .error .padding
  | .rddata => .ok (.rddata (headerArg h))
  | .xfer =>
    let width := (payloadWord p 0).extractLsb' 0 16
    let height := (payloadWord p 0).extractLsb' 16 16
    if headerFlag h then .ok (.xfer width height (some ⟨payloadWord p 1, payloadWord p 2⟩))
    else if payloadWord p 1 == 0 && payloadWord p 2 == 0 then .ok (.xfer width height none)
    else .error .callbackWords

/-- The decoder: total, and every word sequence is one legal operation, illegal, or not yet a whole packet. An illegal
header consumes itself alone; a legal header consumes its payload whether or not the payload is legal (R107, R108). -/
def decode : List Word → Decoded
  | [] => .incomplete
  | h :: ws =>
    match selectOp h with
    | none => .illegal .header ws
    | some op =>
      let k := payloadLength op h
      if ws.length < k then .incomplete
      else
        match decodeOperands op h (ws.take k) with
        | .ok i => .instr i (ws.drop k)
        | .error why => .illegal why (ws.drop k)

/-! ## The encoder -/

/-- A header word OPC[31:24] RSV[23:17] CH[16] ARG[15:0] with RSV zero (R101). -/
def header (opc : BitVec 8) (ch : BitVec 1) (arg : Half) : Word := opc ++ (0#7) ++ ch ++ arg

/-- The field CH of a channel. -/
def channelBit : Channel → BitVec 1
  | .ch0 => 0#1
  | .ch1 => 1#1

/-- Four bytes as a payload word, the first least significant (R104). -/
def packWord (b0 b1 b2 b3 : Byte) : Word := b3 ++ b2 ++ b1 ++ b0

/-- A stream buffer as payload words, zero-padded (R104). -/
def packBytes : List Byte → List Word
  | [] => []
  | [b0] => [packWord b0 0 0 0]
  | [b0, b1] => [packWord b0 b1 0 0]
  | [b0, b1, b2] => [packWord b0 b1 b2 0]
  | b0 :: b1 :: b2 :: b3 :: bs => packWord b0 b1 b2 b3 :: packBytes bs

/-- The payload of SETREQ (R105). -/
def encodeReq (r : TimingReq) : List Word :=
  [r.csOn, r.csOff, r.weOn, r.weOff, r.weCycle, r.reOn, r.reOff, r.reCycle, r.access, r.csPulse]

/-- A one-bit operand as the field ARG. -/
def flagArg (b : Bool) : Half := if b then 1 else 0

/-- The packet of an operation (R103, R105). -/
def encode : Instr → List Word
  | .lock => [header 0x01 0 0]
  | .unlock => [header 0x02 0 0]
  | .enable n => [header 0x03 (channelBit n) 0]
  | .disable => [header 0x04 0 0]
  | .setclk rate => [header 0x10 0 0, rate]
  | .setreq n r => header 0x11 (channelBit n) 0 :: encodeReq r
  | .setfmt n depth lines => [header 0x12 (channelBit n) (depth ++ lines)]
  | .sette flag => [header 0x13 0 (flagArg flag)]
  | .configure n depth lines => [header 0x20 (channelBit n) (depth ++ lines)]
  | .solve n => [header 0x21 (channelBit n) 0]
  | .wrcmd bytes => header 0x30 0 (BitVec.ofNat 16 bytes.length) :: packBytes bytes
  | .wrdata bytes => header 0x31 0 (BitVec.ofNat 16 bytes.length) :: packBytes bytes
  | .rddata len => [header 0x32 0 len]
  | .xfer width height none => [header 0x33 0 (flagArg false), height ++ width, 0, 0]
  | .xfer width height (some c) => [header 0x33 0 (flagArg true), height ++ width, c.cb, c.ctx]

/-! ## Words numbered as the opcode table numbers them -/

/-- The first `k` words of a number whose bit 0 is the least significant bit of the first word. -/
def wordsOf : Nat → Nat → List Word
  | 0, _ => []
  | k + 1, w => BitVec.ofNat 32 w :: wordsOf k (w / 2 ^ 32)

/-- The packet whose bits are the low `nbits` bits of `w`, every bit above them zero: the header and as many payload
words as it announces (none for a header that is no operation's). -/
def tableWords (nbits w : Nat) : List Word :=
  let v := w % 2 ^ nbits
  let k := match selectOp (BitVec.ofNat 32 v) with
    | some op => payloadLength op (BitVec.ofNat 32 v)
    | none => 0
  wordsOf (k + 1) v

/-- The operation the decoder reads from the packet whose bits are the low `nbits` bits of `w`, all others zero. -/
def decodeTableWord (nbits w : Nat) : Option Instr :=
  match decode (tableWords nbits w) with
  | .instr i _ => some i
  | .illegal _ _ => none
  | .incomplete => none

end Sys2Proof
end

