-- ==== Sys2Proof/Machine/Operands.lean ====
section
/-! DEFINITION. Bit fields of a register word, the fields of CONTROL, the units of a stream and the words of a response
(spec/00_scope.md R14 to R16, spec/30_encoding.md R92 to R99, R104, R106). -/

namespace Sys2Proof.Machine

/-! ## Bit fields -/

/-- The mask of the field `hi:lo` in its place: `(2^(hi-lo+1) - 1) << lo` (R16). -/
def fieldMask (hi lo : Nat) : Word := BitVec.ofNat 32 (2 ^ (hi - lo + 1) - 1) <<< lo

/-- `v` with its field `hi:lo` replaced by `f`: `(v & ~(mask << lo)) | (f << lo)` (R16). -/
def setField (v : Word) (hi lo : Nat) (f : Word) : Word := (v &&& ~~~(fieldMask hi lo)) ||| (f <<< lo)

/-- The field `hi:lo` of a word, as a natural number: `v[hi:lo]` (R14). -/
def field (v : Word) (hi lo : Nat) : Nat := (v.toNat / 2 ^ lo) % 2 ^ (hi - lo + 1)

/-- `a div b` rounded toward zero after adding `b - 1`: `ceil_div(a, b)`, for `b` at least 1 (R15). -/
def ceilDiv (a b : Nat) : Nat := (a + b - 1) / b

/-! ## CONTROL (R36, R94) -/

/-- The code of CS_SEL that selects channel `n`: `n + 1` (R94, D17). PRESUMED by the spec itself, log 19. -/
def csSelect (n : Channel) : Word := BitVec.ofNat 32 (n.num + 1)

/-- CONTROL after CONFIGURE's last write: CS_SEL is `n + 1`, BYPASS is 0, the rest as it was (R147). -/
def controlSelected (v : Word) (n : Channel) : Word := (v &&& ~~~0x0000000E#32) ||| (csSelect n <<< 2)

/-- CONTROL after XFER's write: ENABLE set, and ITE set unless tear elimination is active (R204). -/
def controlStarted (v : Word) (teActive : Bool) : Word :=
  if teActive then v ||| 0x00000001#32 else (v ||| 0x00000001#32) ||| 0x00000010#32

/-! ## Parallel modes -/

/-- The line count of a parallel mode. -/
def ParMode.lines : ParMode → Nat
  | .m8 => 8
  | .m9 => 9
  | .m12 => 12
  | .m16 => 16

/-- The parallel mode of a line count: `line_count ∈ {8,9,12,16}` (spec/41_bus_formatter.md R141). -/
def ParMode.ofLines (lines : Nat) : Option ParMode :=
  if lines = 8 then some .m8
  else if lines = 9 then some .m9
  else if lines = 12 then some .m12
  else if lines = 16 then some .m16
  else none

/-! ## Units of a stream (R97, spec/43_transfer_engine.md R190 to R193) -/

/-- How much a stream moves per register access. -/
inductive UnitSize where
  /-- One byte, in 8-line mode. -/
  | byte
  /-- Two bytes, in 16-line mode. -/
  | half
deriving DecidableEq, Repr

/-- The words written for a buffer in 8-line mode: `zext_32(b)` (R193). -/
def byteUnits (bytes : List Byte) : List Word := bytes.map (fun b => b.zeroExtend 32)

/-- The words written for a buffer in 16-line mode: `zext_32(b0 | (b1 << 8))`, the byte at the lower index less
significant (R193, D20). -/
def halfUnits : List Byte → List Word
  | b0 :: b1 :: bs => (b1 ++ b0).zeroExtend 32 :: halfUnits bs
  | [_] => []
  | [] => []

/-- The units of a buffer, in order. -/
def streamUnits : UnitSize → List Byte → List Word
  | .byte, bytes => byteUnits bytes
  | .half, bytes => halfUnits bytes

/-- How many units a length is (R192). -/
def unitCount : UnitSize → Nat → Nat
  | .byte, len => len
  | .half, len => len / 2

/-- The bytes RDDATA keeps of a value read; the bits above the unit are dropped (R97, R198). -/
def unitBytes : UnitSize → Word → List Byte
  | .byte, v => [v.extractLsb' 0 8]
  | .half, v => [v.extractLsb' 0 8, v.extractLsb' 8 8]

/-! ## Responses (spec/60_exceptions.md R251, spec/30_encoding.md R106) -/

/-- The status code of R251. -/
def Status.code : Status → Byte
  | .ok => 0x00
  | .unsupportedFormat => 0x01
  | .unsupportedRatio => 0x02
  | .timingUnsatisfiable => 0x03
  | .transferAlreadyPending => 0x04
  | .misalignedLength => 0x05
  | .unsupportedParallelMode => 0x06
  | .powerResourceUnavailable => 0x07
  | .handlerRegistrationFailed => 0x08
  | .illegalCommand => 0xFF

/-- The words of a response: the status in bits 7:0 of the first, then the bytes read packed into
`ceil_div(len, 4)` words, the bytes beyond them zero (R104, R106). -/
def responseWords (status : Status) (bytes : List Byte) : List Word :=
  status.code.zeroExtend 32 :: packBytes bytes

/-- The words a requester receives for an event: those of its `Resp`; every other event reaches no requester's port
(R106). -/
def Event.wordsTo (r : Nat) : Event → List Word
  | .resp q status bytes => if q = r then responseWords status bytes else []
  | .regW _ _ => []
  | .regR _ _ => []
  | .powerAcquire _ => []
  | .powerRelease => []
  | .handlerRegister => []
  | .handlerUnregister => []
  | .mgrSetTimings _ => []
  | .mgrDisable => []
  | .callback _ _ => []

end Sys2Proof.Machine
end

