-- ==== Sys2Proof/Machine/Ops.lean ====
section
/-! DEFINITION. The named operations every meaning is written with: events and responses, draws and answers of the
environment, the register primitives RegRead, RegWrite and RegMod (spec/20_memory.md R66, R67; spec/00_scope.md R16), the
contract violation (spec/60_exceptions.md R262) and the frame-done completion step (spec/43_transfer_engine.md R208). -/

namespace Sys2Proof.Machine

/-- What a meaning answers. -/
abbrev Result := Host.Outcome State Fault Refusal

/-! ## Events and responses -/

/-- `emit E`: append an output event to the trace (R16, R44). -/
def emit (e : Event) (s : State) : State := { s with trace := s.trace ++ [e] }

/-- Send the issuing requester its response (R106). -/
def respond (status : Status) (bytes : List Byte) (s : State) : State := emit (.resp s.issuer status bytes) s

/-- `return S`: end the operation with a status (R16, R250). -/
def finish (status : Status) (s : State) : Result := .next (respond status [] s)

/-! ## Contract violations and the lock check -/

/-- `fault K`: the sticky bit is set and "no other state component, register or trace entry changes"; no response is sent
and the requester is not blocked (R262). NotHolder is the only kind (R263). This is the one way an operation of this block
is taken out of its course: there is no saved state, no handler and no return (R268). -/
def contractViolation (s : State) : Result := .next (setFault s)

/-- `if owner ≠ r: fault NotHolder`, the first check of every lock-requiring operation (R265, R270). -/
def withLock (body : State → Result) (s : State) : Result :=
  if s.owner = some s.issuer then body s else contractViolation s

/-! ## Draws and answers of the environment (spec/10_state.md R45) -/

/-- A fresh 32-bit draw. -/
def drawWord (s : State) : Word × State := (Config.freeWord s.draws, { s with draws := s.draws + 1 })

/-- A fresh one-bit draw. -/
def drawBool (s : State) : Bool × State := (Config.freeBool s.draws, { s with draws := s.draws + 1 })

/-- `env.read_value`: the environment's next answer, or a draw when the state names none (R45, U8). -/
def envRead (s : State) : Word × State :=
  match s.readAnswers with
  | v :: vs => (v, { s with readAnswers := vs })
  | [] => drawWord s

/-- `env.power_ok`: the environment's next answer, or a draw when the state names none (R45, U9). -/
def envPower (s : State) : Bool × State :=
  match s.powerAnswers with
  | ok :: oks => (ok, { s with powerAnswers := oks })
  | [] => drawBool s

/-! ## Register primitives -/

/-- The value a read of a register returns: `env.read_value` for READ, `REV` for REVISION, a draw for the write ports,
the stored word for the rest (R66, D33). -/
def regValue (r : Reg) (s : State) : Word × State :=
  match r with
  | .revision => (s.params.rev, s)
  | .control => (s.regs.control, s)
  | .pixelCnt => (s.regs.pixelCnt, s)
  | .cmd => drawWord s
  | .param => drawWord s
  | .data => drawWord s
  | .read => envRead s
  | .config n => (s.regs.config.get n, s)
  | .onoffTime n => (s.regs.onoffTime.get n, s)
  | .cycleTime n => (s.regs.cycleTime.get n, s)
  | .dataCycle1 n => (s.regs.dataCycle1.get n, s)
  | .dataCycle2 n => (s.regs.dataCycle2.get n, s)
  | .dataCycle3 n => (s.regs.dataCycle3.get n, s)

/-- The register file after a write: a write to REVISION is ignored, the ports store nothing, the rest store the word
(R67, D33). -/
def RegFile.store (f : RegFile) (r : Reg) (v : Word) : RegFile :=
  match r with
  | .revision => f
  | .control => { f with control := v }
  | .pixelCnt => { f with pixelCnt := v }
  | .cmd => f
  | .param => f
  | .data => f
  | .read => f
  | .config n => { f with config := f.config.set n v }
  | .onoffTime n => { f with onoffTime := f.onoffTime.set n v }
  | .cycleTime n => { f with cycleTime := f.cycleTime.set n v }
  | .dataCycle1 n => { f with dataCycle1 := f.dataCycle1.set n v }
  | .dataCycle2 n => { f with dataCycle2 := f.dataCycle2.set n v }
  | .dataCycle3 n => { f with dataCycle3 := f.dataCycle3.set n v }

/-- `RegRead` of a listed register: the value, and the event `RegR` (R66). -/
def regRead (r : Reg) (s : State) : Word × State :=
  ((regValue r s).1, emit (.regR r.offset (regValue r s).1) (regValue r s).2)

/-- `RegWrite` of a listed register: the storage, and the event `RegW` in every case (R67). -/
def regWrite (r : Reg) (v : Word) (s : State) : State :=
  emit (.regW r.offset v) { s with regs := s.regs.store r v }

/-- `RegMod`: one read, then one write of the value read with its field `hi:lo` replaced (R16). -/
def regMod (r : Reg) (hi lo : Nat) (f : Word) (s : State) : State :=
  regWrite r (setField (regRead r s).1 hi lo f) (regRead r s).2

/-- `RegRead(off)`: as regRead at a listed offset, refused at every other (R64, R66). -/
def regReadAt (off : Nat) (s : State) : Except Refusal (Word × State) :=
  match Reg.ofOffset off with
  | some r => .ok (regRead r s)
  | none => .error (.unlistedOffset off)

/-- `RegWrite(off, v)`: as regWrite at a listed offset, refused at every other (R64, R67). -/
def regWriteAt (off : Nat) (v : Word) (s : State) : Except Refusal State :=
  match Reg.ofOffset off with
  | some r => .ok (regWrite r v s)
  | none => .error (.unlistedOffset off)

/-! ## The frame-done completion step -/

/-- Emit the callback that was taken, if there was one (R208, R209). -/
def emitCallback (taken : Option Callback) (s : State) : State :=
  match taken with
  | some c => emit (.callback c.cb c.ctx) s
  | none => s

/-- The completion step of one FRAME_DONE: ENABLE is cleared, the pending callback is taken and nulled, `xfer_pending` is
cleared, and the callback taken is emitted. It needs no lock, has no requester and sends no response (R208). -/
def completionStep (s : State) : State :=
  emitCallback s.pendingCb (setXferPending false { regMod .control 0 0 0 s with pendingCb := none })

end Sys2Proof.Machine
end

