-- ==== Sys2Proof/Machine/Formatter.lean ====
section
/-! DEFINITION. The BusFormatter and CONFIGURE (spec/41_bus_formatter.md). -/

namespace Sys2Proof.Machine

/-- How a step inside an operation ends: it goes on, or it fails with an error status and what it had already done. -/
inductive Progress where
  | done (s : State)
  | failed (e : Status) (s : State)
deriving Repr

/-! ## The pure part -/

/-- A supported pixel depth: `bit_depth ∈ {12,16,18,24}` (R141). -/
inductive Depth where
  | d12
  | d16
  | d18
  | d24
deriving DecidableEq, Repr

/-- The supported depth of a number of bits. -/
def Depth.ofBits (depth : Nat) : Option Depth :=
  if depth = 12 then some .d12
  else if depth = 16 then some .d16
  else if depth = 18 then some .d18
  else if depth = 24 then some .d24
  else none

/-- The cycle formats "1:1", "2:1", "3:1", "3:2" (R142). -/
inductive CycleFormat where
  | f11
  | f21
  | f31
  | f32
deriving DecidableEq, Repr

/-- Validate: the depth and the line count are supported, or UnsupportedFormat (R141). -/
def validate (depth lines : Nat) : Except Status (Depth × ParMode) :=
  match Depth.ofBits depth, ParMode.ofLines lines with
  | some d, some m => .ok (d, m)
  | _, _ => .error .unsupportedFormat

/-- Classify: the cycle format of a depth over a line count, or UnsupportedRatio; the three branches are tried in this
order (R142). -/
def classify (depth lines : Nat) : Except Status CycleFormat :=
  if depth % lines = 0 then
    if depth / lines = 1 then .ok .f11
    else if depth / lines = 2 then .ok .f21
    else if depth / lines = 3 then .ok .f31
    else .error .unsupportedRatio
  else if (2 * depth) % lines = 0 ∧ (2 * depth) / lines = 3 then .ok .f32
  else .error .unsupportedRatio

/-- PARMODE of a parallel mode under a layout (R95). -/
def parmodeCode (c : FourCodes) : ParMode → Nat
  | .m8 => c.code0
  | .m9 => c.code1
  | .m12 => c.code2
  | .m16 => c.code3

/-- DATATYPE of a depth under a layout (R95). -/
def datatypeCode (c : FourCodes) : Depth → Nat
  | .d12 => c.code0
  | .d16 => c.code1
  | .d18 => c.code2
  | .d24 => c.code3

/-- CYCLEFMT of a cycle format under a layout (R95). -/
def cyclefmtCode (c : FourCodes) : CycleFormat → Nat
  | .f11 => c.code0
  | .f21 => c.code1
  | .f31 => c.code2
  | .f32 => c.code3

/-- The word CONFIGURE writes to CONFIG(n): `PARMODE | (DATATYPE << 5) | (CYCLEFMT << 9) | 0x00300000` in the default layout,
GRAN zero (R95, R145). -/
def configWord (L : CfgLayout) (d : Depth) (m : ParMode) (f : CycleFormat) : Word :=
  (BitVec.ofNat 32 (parmodeCode L.parmode m) <<< L.parmodeAt)
    ||| (BitVec.ofNat 32 (datatypeCode L.datatype d) <<< L.datatypeAt)
    ||| (BitVec.ofNat 32 (cyclefmtCode L.cyclefmt f) <<< L.cyclefmtAt)
    ||| L.fixedBits

/-- The three data-cycle words, with `lines` = L: the row of the format in the table of R96 (D16; log 19). -/
def cycleWords (f : CycleFormat) (lines : Nat) : Word × Word × Word :=
  let l := BitVec.ofNat 32 lines
  let half := BitVec.ofNat 32 (lines / 2)
  match f with
  | .f11 => (l, 0, 0)
  | .f21 => (l, l, 0)
  | .f31 => (l, l, l)
  | .f32 => (l, half ||| (half <<< 16), l <<< 16)

/-- What a depth and a line count ask the formatter to write (R145). -/
structure FormatWords where
  config : Word
  cycle1 : Word
  cycle2 : Word
  cycle3 : Word
  mode : ParMode
deriving DecidableEq, Repr

/-- The pure formatter: validation, then classification, then the words (R141 to R145). -/
def formatWords (L : CfgLayout) (depth lines : Nat) : Except Status FormatWords :=
  match validate depth lines with
  | .error e => .error e
  | .ok (d, m) =>
    match classify depth lines with
    | .error e => .error e
    | .ok f =>
      .ok { config := configWord L d m f, cycle1 := (cycleWords f lines).1,
            cycle2 := (cycleWords f lines).2.1, cycle3 := (cycleWords f lines).2.2, mode := m }

/-! ## The operation -/

/-- The register accesses of a CONFIGURE that passes its checks, in their order: CS_SEL cleared, the four words written,
CS_SEL and BYPASS written; then `par_mode <- lines` (R147 to R149). -/
def writeFormat (n : Channel) (w : FormatWords) (s : State) : State :=
  let s1 := regMod .control 3 2 0 s
  let s2 := regWrite (.config n) w.config s1
  let s3 := regWrite (.dataCycle1 n) w.cycle1 s2
  let s4 := regWrite (.dataCycle2 n) w.cycle2 s3
  let s5 := regWrite (.dataCycle3 n) w.cycle3 s4
  let v := regRead .control s5
  { regWrite .control (controlSelected v.1 n) v.2 with parMode := some w.mode }

/-- ConfigureBody: CONFIGURE without its lock check and its response. A failure has accessed no register (R147, R151). -/
def configureBody (n : Channel) (depth lines : Byte) (s : State) : Progress :=
  match formatWords s.params.layout depth.toNat lines.toNat with
  | .error e => .failed e s
  | .ok w => .done (writeFormat n w s)

/-- CONFIGURE (R147). -/
def execConfigure (n : Channel) (depth lines : Byte) (s : State) : Result :=
  withLock (fun s =>
    match configureBody n depth lines s with
    | .failed e s' => finish e s'
    | .done s' => finish .ok s') s

end Sys2Proof.Machine
end

