-- ==== Sys2Proof/Machine/Solver.lean ====
section
/-! DEFINITION. The TimingSolver and SOLVE (spec/42_timing_solver.md). -/

namespace Sys2Proof.Machine

/-! ## The pure function Solve -/

/-- Apply a function to each of the ten fields. -/
def tenMap {α β : Type} (f : α → β) (t : Ten α) : Ten β :=
  { csOn := f t.csOn, csOff := f t.csOff, weOn := f t.weOn, weOff := f t.weOff, weCycle := f t.weCycle,
    reOn := f t.reOn, reOff := f t.reOff, reCycle := f t.reCycle, access := f t.access, csPulse := f t.csPulse }

/-- A requirement as natural numbers of picoseconds (R15, R22). -/
def reqPs (req : TimingReq) : Ten Nat := tenMap BitVec.toNat req

/-- Step a: every field rounded up to a multiple of the tick (R163). -/
def roundTo (tick : Nat) (ps : Ten Nat) : Ten Nat := tenMap (fun x => ceilDiv x tick * tick) ps

/-- Step b: tick counts of rounded values (R164). -/
def tickCounts (tick : Nat) (rounded : Ten Nat) : Ten Nat := tenMap (fun x => ceilDiv x tick) rounded

/-- `if off ≤ on: off = on + 1`. -/
def bumpAbove (on off : Nat) : Nat := if off ≤ on then on + 1 else off

/-- `if x < floor: x = floor`. -/
def raiseTo (floor x : Nat) : Nat := if x < floor then floor else x

/-- Step c, the ordering and clamping rules in the listed order, each on the values already adjusted (R166, D12). -/
def adjust (t : Ten Nat) : Ten Nat :=
  let weOff := bumpAbove t.weOn t.weOff
  let reOff := bumpAbove t.reOn t.reOff
  let csOff := raiseTo (max weOff reOff) (bumpAbove t.csOn t.csOff)
  { csOn := t.csOn, csOff := csOff, weOn := t.weOn, weOff := weOff, weCycle := raiseTo weOff t.weCycle,
    reOn := t.reOn, reOff := reOff, reCycle := raiseTo reOff t.reCycle,
    access := bumpAbove t.reOn t.access, csPulse := t.csPulse }

/-- The width check: `_on` counts at most 15, the other seven at most 63 (R167). -/
def fits (t : Ten Nat) : Bool :=
  decide (t.csOn ≤ 15) && decide (t.weOn ≤ 15) && decide (t.reOn ≤ 15)
    && decide (t.csOff ≤ 63) && decide (t.weOff ≤ 63) && decide (t.reOff ≤ 63)
    && decide (t.access ≤ 63) && decide (t.weCycle ≤ 63) && decide (t.reCycle ≤ 63) && decide (t.csPulse ≤ 63)

/-- Word A (R92, R168). -/
def packA (t : Ten Nat) : Word :=
  BitVec.ofNat 32 t.csOn ||| (BitVec.ofNat 32 t.csOff <<< 4) ||| (BitVec.ofNat 32 t.weOn <<< 10)
    ||| (BitVec.ofNat 32 t.weOff <<< 14) ||| (BitVec.ofNat 32 t.reOn <<< 20) ||| (BitVec.ofNat 32 t.reOff <<< 24)

/-- Word B (R93, R168). -/
def packB (t : Ten Nat) : Word :=
  BitVec.ofNat 32 t.weCycle ||| (BitVec.ofNat 32 t.reCycle <<< 6) ||| (BitVec.ofNat 32 t.csPulse <<< 12)
    ||| (BitVec.ofNat 32 t.access <<< 22)

/-- The `Ok` result of Solve; its granularity is `div - 1` (R168). -/
structure Solution where
  div : Nat
  wordA : Word
  wordB : Word
  rounded : Ten Nat
deriving DecidableEq, Repr

/-- The rounded values at one divider, the tick being `period_ps * div` (R162, R163). -/
def roundedAt (ps : Ten Nat) (periodPs div : Nat) : Ten Nat := roundTo (periodPs * div) ps

/-- The raw tick counts at one divider (R164). -/
def rawAt (ps : Ten Nat) (periodPs div : Nat) : Ten Nat := tickCounts (periodPs * div) (roundedAt ps periodPs div)

/-- The adjusted tick counts at one divider (R166). -/
def adjustedAt (ps : Ten Nat) (periodPs div : Nat) : Ten Nat := adjust (rawAt ps periodPs div)

/-- One turn of the divider loop: the result at `div` if every adjusted count fits (R167, R168). -/
def attempt (ps : Ten Nat) (periodPs div : Nat) : Option Solution :=
  if fits (adjustedAt ps periodPs div) then
    some { div := div, wordA := packA (adjustedAt ps periodPs div), wordB := packB (adjustedAt ps periodPs div),
           rounded := roundedAt ps periodPs div }
  else none

/-- The divider loop, ascending from `div`, for at most `left` dividers (R161). -/
def solveFrom (ps : Ten Nat) (periodPs : Nat) : (left div : Nat) → Option Solution
  | 0, _ => none
  | left + 1, div =>
    match attempt ps periodPs div with
    | some r => some r
    | none => solveFrom ps periodPs left (div + 1)

/-- Solve(req, period_ps, max_div): none is TimingUnsatisfiable (R160, R169, R170). -/
def solve (req : TimingReq) (periodPs maxDiv : Nat) : Option Solution := solveFrom (reqPs req) periodPs maxDiv 1

/-! ## The operation -/

/-- The SolvedTiming a solution stores: the granularity bit is `div - 1` (R99, R168, R178). -/
def solvedOf (r : Solution) : SolvedTiming :=
  { converted := true, div := r.div, wordA := r.wordA, wordB := r.wordB, gran := BitVec.ofNat 1 (r.div - 1),
    rounded := r.rounded }

/-- The register accesses of a SOLVE that succeeds: Word A, Word B, then the bit GRAN of CONFIG(n) (R175, R177). -/
def writeTiming (n : Channel) (t : SolvedTiming) (s : State) : State :=
  let s1 := regWrite (.onoffTime n) t.wordA s
  let s2 := regWrite (.cycleTime n) t.wordB s1
  regMod (.config n) s.params.layout.granAt s.params.layout.granAt (t.gran.zeroExtend 32) s2

/-- SolveBody: the `case` of R175. A failure writes no register and clears `converted` (R176). -/
def solveBody (n : Channel) (req : TimingReq) (clk : ClockContext) (s : State) : Progress :=
  match solve req clk.periodPs Config.maxDiv with
  | none => .failed .timingUnsatisfiable (clearConverted n s)
  | some r => .done (writeTiming n (solvedOf r) { s with solved := s.solved.set n (solvedOf r) })

/-- SOLVE (R175). With `clk` or `req[n]` unloaded the behaviour is unspecified and the model refuses (R136, U2). -/
def execSolve (n : Channel) (s : State) : Result :=
  withLock (fun s =>
    match s.clk, s.req.get n with
    | some clk, some req =>
      match solveBody n req clk s with
      | .failed e s' => finish e s'
      | .done s' => finish .ok s'
    | _, _ => .refused .parameterUnloaded) s

end Sys2Proof.Machine
end

