-- ==== Sys2Proof/Machine/Controller.lean ====
section
/-! DEFINITION. The BusController: LOCK, UNLOCK, the grant step, ENABLE, DISABLE and the reset event
(spec/44_bus_controller.md, spec/70_reset_and_hazards.md R290). -/

namespace Sys2Proof.Machine

/-! ## The arbiter -/

/-- `waiting ∪ { r }`, the list staying strictly rising. -/
def insertWaiter (r : Nat) : List Nat → List Nat
  | [] => [r]
  | w :: ws => if r < w then r :: w :: ws else if r = w then w :: ws else w :: insertWaiter r ws

/-- `waiting \ { w }`. -/
def removeWaiter (r : Nat) (ws : List Nat) : List Nat := ws.filter (fun w => w != r)

/-- LOCK, the request step (R221): a free lock is taken and answered; a taken one, the issuer's own included, makes the
issuer wait without a response (R223). -/
def execLock (s : State) : Result :=
  match s.owner with
  | none => finish .ok { s with owner := some s.issuer }
  | some _ => .next { s with waiting := insertWaiter s.issuer s.waiting }

/-- The grant step for the waiter `w` (R221): possible only while the lock is free. -/
def grantStep (w : Nat) (s : State) : Result :=
  match s.owner with
  | some _ => .fault .lockHeld
  | none =>
    if w ∈ s.waiting then
      .next (emit (.resp w .ok []) { s with waiting := removeWaiter w s.waiting, owner := some w })
    else .fault .notWaiting

/-- UNLOCK (R222): the holder releases; from anyone else it changes nothing. The answer is always OK. -/
def execUnlock (s : State) : Result :=
  if s.owner = some s.issuer then finish .ok { s with owner := none } else finish .ok s

/-! ## Collaborator calls -/

/-- The power acquire and the collaborator's answer (R224, step 1). -/
def acquirePower (s : State) : Bool × State :=
  ((envPower s).1, emit (.powerAcquire (envPower s).1) (envPower s).2)

/-- `emit PowerRelease; power_refs <- power_refs - 1`, never below zero (R30, R224). -/
def releasePower (s : State) : State := emit .powerRelease { s with powerRefs := s.powerRefs - 1 }

/-- `emit HandlerRegister; handler_registered <- 1` (R224, step 2). -/
def registerHandler (s : State) : State := emit .handlerRegister (setHandlerRegistered true s)

/-- `emit HandlerUnregister; handler_registered <- 0` (R224, R228). -/
def unregisterHandler (s : State) : State := emit .handlerUnregister (setHandlerRegistered false s)

/-- Rollback: the handler first, then the power (R224, D29). Registers are not rolled back (R227). -/
def rollback (s : State) : State := releasePower (unregisterHandler s)

/-! ## Enable and disable -/

/-- Steps 3 to 5 of ENABLE, with the power acquired and the handler registered (R224). -/
def enableChannel (n : Channel) (fmt : BusFormat) (req : TimingReq) (clk : ClockContext) (s : State) : Result :=
  match configureBody n fmt.depth fmt.lines s with
  | .failed e s' => finish e (rollback s')
  | .done s1 =>
    match solveBody n req clk s1 with
    | .failed e s' => finish e (rollback s')
    | .done s2 => finish .ok (setEnabled true (emit (.mgrSetTimings n) s2))

/-- ENABLE with its parameters loaded, from step 1 (R224). -/
def enableBody (n : Channel) (fmt : BusFormat) (req : TimingReq) (clk : ClockContext) (s : State) : Result :=
  let p := acquirePower s
  if p.1 then
    let s1 := { p.2 with powerRefs := p.2.powerRefs + 1 }
    if s1.handlerRegistered then finish .handlerRegistrationFailed (releasePower s1)
    else enableChannel n fmt req clk (registerHandler s1)
  else finish .powerResourceUnavailable p.2

/-- ENABLE (R224). With `clk`, `fmt[n]` or `req[n]` unloaded the behaviour is unspecified and the model refuses
(R136, U2); DEDUCED to be checked right after the lock, log 9. -/
def execEnable (n : Channel) (s : State) : Result :=
  withLock (fun s =>
    match s.clk, s.fmt.get n, s.req.get n with
    | some clk, some fmt, some req => enableBody n fmt req clk s
    | _, _, _ => .refused .parameterUnloaded) s

/-- DISABLE's teardown: a sub-step that has nothing to undo is skipped (R228, D31). -/
def teardown (s : State) : State :=
  let s1 := emit .mgrDisable s
  let s2 := if s1.handlerRegistered then unregisterHandler s1 else s1
  let s3 := if s2.powerRefs > 0 then releasePower s2 else s2
  setEnabled false s3

/-- DISABLE (R228): always succeeds for the holder; no register, transfer or callback is touched. -/
def execDisable (s : State) : Result := withLock (fun s => finish .ok (teardown s)) s

/-! ## Reset -/

/-- The reset event (R290, R291): every component takes its value of R52 with fresh draws; the parameters, and the inputs
that have yet to come, are not state of the block and stay (log 17). -/
def resetEvent (s : State) : State :=
  { State.afterReset s.params s.draws with
    ports := s.ports, schedule := s.schedule, powerAnswers := s.powerAnswers, readAnswers := s.readAnswers }

end Sys2Proof.Machine
end

