-- ==== Sys2Proof/Machine/Setup.lean ====
section
/-! DEFINITION. The load operations SETCLK, SETREQ, SETFMT, SETTE (spec/40_setup.md). They need no lock, touch no register,
call no collaborator and never wait (R135). -/

namespace Sys2Proof.Machine

/-- The rates whose period is defined: 1 to 10^9 kHz (R130). -/
def rateInRange (rateKhz : Word) : Bool := decide (1 ≤ rateKhz.toNat ∧ rateKhz.toNat ≤ 1000000000)

/-- `period_ps = 1000000000 div rate_khz` (R130, D11). -/
def periodOf (rateKhz : Word) : Nat := 1000000000 / rateKhz.toNat

/-- SETCLK (R130): load the clock period; both `converted` flags are cleared (R134). Outside the range the behaviour is
unspecified and the model refuses (U1). -/
def execSetclk (rateKhz : Word) (s : State) : Result :=
  if rateInRange rateKhz then
    finish .ok (clearConverted .ch1 (clearConverted .ch0 { s with clk := some ⟨periodOf rateKhz⟩ }))
  else .refused .clockRateUnspecified

/-- SETREQ (R131): load the ten fields together; `converted` of the channel is cleared (R134). -/
def execSetreq (n : Channel) (req : TimingReq) (s : State) : Result :=
  finish .ok (clearConverted n { s with req := s.req.set n (some req) })

/-- SETFMT (R132): load depth and lines; they are validated when the formatter runs, not here. -/
def execSetfmt (n : Channel) (depth lines : Byte) (s : State) : Result :=
  finish .ok { s with fmt := s.fmt.set n (some ⟨depth, lines⟩) }

/-- SETTE (R133): load the tear-elimination flag. -/
def execSette (flag : Bool) (s : State) : Result := finish .ok (setTeActive flag s)

end Sys2Proof.Machine
end

