-- ==== Sys2Proof/Machine/Transfer.lean ====
section
/-! DEFINITION. The TransferEngine: WRCMD, WRDATA, RDDATA, XFER (spec/43_transfer_engine.md). The completion step stands in
Sys2Proof/Machine/Ops.lean. -/

namespace Sys2Proof.Machine

/-! ## The stream check -/

/-- The outcome of StreamCheck (R192). -/
inductive StreamCheck where
  | stop (e : Status)
  | go (u : UnitSize)
  /-- `par_mode` has no value: unspecified, U3. -/
  | noMode
deriving DecidableEq, Repr

/-- StreamCheck: the mode first, the length second (R191, R192, D23). -/
def streamCheck (mode : Option ParMode) (len : Nat) : StreamCheck :=
  match mode with
  | none => .noMode
  | some .m9 => .stop .unsupportedParallelMode
  | some .m12 => .stop .unsupportedParallelMode
  | some .m16 => if len % 2 = 1 then .stop .misalignedLength else .go .half
  | some .m8 => .go .byte

/-- A stream's body under the lock and the checks (R194 to R198): an error status moves nothing. -/
def withStream (len : Nat) (body : UnitSize → State → Result) (s : State) : Result :=
  withLock (fun s =>
    match streamCheck s.parMode len with
    | .stop e => finish e s
    | .noMode => .refused .noParallelMode
    | .go u => body u s) s

/-! ## Writing -/

/-- One register write per unit, in order (R190, R193). -/
def writeUnits (r : Reg) : List Word → State → State
  | [], s => s
  | w :: ws, s => writeUnits r ws (regWrite r w s)

/-- WRCMD (R195): each unit to CMD. -/
def execWrcmd (bytes : List Byte) (s : State) : Result :=
  withStream bytes.length (fun u s => finish .ok (writeUnits .cmd (streamUnits u bytes) s)) s

/-- WRDATA (R196): each unit to DATA. -/
def execWrdata (bytes : List Byte) (s : State) : Result :=
  withStream bytes.length (fun u s => finish .ok (writeUnits .data (streamUnits u bytes) s)) s

/-! ## Reading -/

/-- One unit read: a dummy write of 0 to READ, then a read of READ (R198, D22). -/
def readUnit (s : State) : Word × State := regRead .read (regWrite .read 0 s)

/-- The bytes of `k` units read in order, and the state after them (R198). -/
def readUnits (u : UnitSize) : Nat → State → List Byte × State
  | 0, s => ([], s)
  | k + 1, s =>
    let v := readUnit s
    let rest := readUnits u k v.2
    (unitBytes u v.1 ++ rest.1, rest.2)

/-- RDDATA (R198): the response carries the bytes read. -/
def execRddata (len : Half) (s : State) : Result :=
  withStream len.toNat (fun u s =>
    let r := readUnits u (unitCount u len.toNat) s
    .next (respond .ok r.1 r.2)) s

/-! ## Frame transfer -/

/-- The register accesses of an accepted XFER: PIXEL_CNT, then one read and one write of CONTROL (R204, D26). -/
def writeTransfer (width height : Half) (s : State) : State :=
  let s1 := regWrite .pixelCnt (BitVec.ofNat 32 (width.toNat * height.toNat)) s
  let v := regRead .control s1
  regWrite .control (controlStarted v.1 s.teActive) v.2

/-- XFER (R204): refused with TransferAlreadyPending while a transfer is pending; else started, and its callback stored. -/
def execXfer (width height : Half) (callback : Option Callback) (s : State) : Result :=
  withLock (fun s =>
    if s.xferPending then finish .transferAlreadyPending s
    else finish .ok (setXferPending true { writeTransfer width height s with pendingCb := callback })) s

end Sys2Proof.Machine
end

