-- ==== Sys2Proof/Machine/Dispatch.lean ====
section
/-! DEFINITION. The meaning of every operation: one arm per constructor of Instr (spec/30_encoding.md R100). -/

namespace Sys2Proof.Machine

def exec (i : Instr) (s : State) : Host.Outcome State Fault Refusal :=
  match i with
  | .lock => Sys2Proof.Machine.execLock s
  | .unlock => Sys2Proof.Machine.execUnlock s
  | .enable n => Sys2Proof.Machine.execEnable n s
  | .disable => Sys2Proof.Machine.execDisable s
  | .setclk rateKhz => Sys2Proof.Machine.execSetclk rateKhz s
  | .setreq n req => Sys2Proof.Machine.execSetreq n req s
  | .setfmt n depth lines => Sys2Proof.Machine.execSetfmt n depth lines s
  | .sette flag => Sys2Proof.Machine.execSette flag s
  | .configure n depth lines => Sys2Proof.Machine.execConfigure n depth lines s
  | .solve n => Sys2Proof.Machine.execSolve n s
  | .wrcmd bytes => Sys2Proof.Machine.execWrcmd bytes s
  | .wrdata bytes => Sys2Proof.Machine.execWrdata bytes s
  | .rddata len => Sys2Proof.Machine.execRddata len s
  | .xfer width height callback => Sys2Proof.Machine.execXfer width height callback s

end Sys2Proof.Machine
end

