-- ==== Sys2Proof/Machine/Fetch.lean ====
section
/-! DEFINITION. Taking a packet from a command port (spec/20_memory.md R75, spec/30_encoding.md R101, R107, R108). -/

namespace Sys2Proof.Machine

/-- The words requester `r` has yet to present. -/
def State.portWords (s : State) (r : Nat) : List Word := s.ports.getD r []

/-- The list with its element `r` replaced; a port beyond the list is added, the ports between holding nothing. -/
def putPort : List (List Word) → Nat → List Word → List (List Word)
  | [], 0, ws => [ws]
  | [], r + 1, ws => [] :: putPort [] r ws
  | _ :: ps, 0, ws => ws :: ps
  | p :: ps, r + 1, ws => p :: putPort ps r ws

/-- The state in which requester `r`'s packet has been taken from its port, `rest` being left there. -/
def takePacket (r : Nat) (rest : List Word) (s : State) : State :=
  { s with issuer := r, ports := putPort s.ports r rest }

/-- What a `serve` turn finds. -/
inductive Fetched where
  /-- An operation to execute in the state given. -/
  | run (i : Instr) (s : State)
  /-- An illegal packet, consumed in the state given. -/
  | illegal (s : State)
  /-- The turn is no transition of the block. -/
  | stop (why : Fault)
deriving Repr

/-- The packet at requester `r`'s port, with the requester made the issuer (R75, R101). A requester in `waiting` issues
nothing (R33). -/
def fetch (r : Nat) (s : State) : Fetched :=
  if s.params.nReq ≤ r then .stop .noSuchPort
  else if r ∈ s.waiting then .stop .requesterWaiting
  else
    match decode (s.portWords r) with
    | .instr i rest => .run i (takePacket r rest s)
    | .illegal _ rest => .illegal (takePacket r rest s)
    | .incomplete => .stop .packetNotPresent

/-- An illegal packet: status IllegalCommand, and no state changes (R108, R260). -/
def illegalPacket (s : State) : Result := finish .illegalCommand s

/-- The state in which requester 0 has just the packet `ws` at its port, is not waiting, and is served next. -/
def placePacket (ws : List Word) (s : State) : State :=
  { s with waiting := s.waiting.filter (fun w => w != 0), ports := putPort s.ports 0 ws, schedule := .serve 0 :: s.schedule }

end Sys2Proof.Machine
end

