-- ==== Sys2Proof/Machine/Step.lean ====
section
/-! DEFINITION. One step: the next turn of the schedule, as one atomic transition (spec/20_memory.md R74, R75). -/

namespace Sys2Proof.Machine

/-- Serve requester `r`: its packet's operation, or the answer to an illegal packet. -/
def serve (r : Nat) (s : State) : Host.Outcome State Fault Refusal :=
  match fetch r s with
  | .run i s' => exec i s'
  | .illegal s' => illegalPacket s'
  | .stop why => .fault why

/-- One turn. -/
def turn (t : Turn) (s : State) : Host.Outcome State Fault Refusal :=
  match t with
  | .serve r => serve r s
  | .grant w => grantStep w s
  | .frameDone => .next (completionStep s)
  | .reset => .next (resetEvent s)

/-- One step of the block: the first turn of the schedule. With nothing scheduled the block waits (R293, log 11). -/
def step (s : State) : Host.Outcome State Fault Refusal :=
  match s.schedule with
  | [] => .next s
  | t :: ts => turn t { s with schedule := ts }

/-- `s` with the packet of an opcode-table word presented at requester 0's port and served next (log 13). -/
def State.withFetchWord (s : State) (nbits w : Nat) : State := placePacket (tableWords nbits w) s

end Sys2Proof.Machine
end

