-- ==== Sys2Proof/Safety.lean ====
section
/-! DEFINITION. What counts as a safe run, the named views of the controller, the assumptions on the environment a claim may
name, and the invariants of the reachable states (spec/10_state.md R51, R53; spec/60_exceptions.md R262, R266, R270). -/

namespace Sys2Proof.Machine

/-- "A claim proved about this block is proved for runs in which `fault` stays 0" (R262). -/
abbrev State.contractKept (s : State) : Prop := s.fault = false

/-! ## The source's named states (R53) -/

/-- The states of the source's chain that are visible between operations; `Locked(disable)` is the condition of `Locked`
and `Configuring` is never visible (R53). -/
inductive ControllerView where
  | idle
  | locked
  | enabled
deriving DecidableEq, Repr

/-- The view of the pair (`owner`, `enabled`) (R53). -/
def State.view (s : State) : ControllerView :=
  if s.enabled then .enabled else if s.owner.isSome then .locked else .idle

/-! ## Privilege (R270) and where an operation has a meaning -/

/-- Which operations need the lock (R270). -/
def needsLock : Instr → Bool
  | .lock => false
  | .unlock => false
  | .enable _ => true
  | .disable => true
  | .setclk _ => false
  | .setreq _ _ => false
  | .setfmt _ _ _ => false
  | .sette _ => false
  | .configure _ _ _ => true
  | .solve _ => true
  | .wrcmd _ => true
  | .wrdata _ => true
  | .rddata _ => true
  | .xfer _ _ _ => true

/-- The issuing requester holds the lock (R270). -/
abbrev State.issuerHolds (s : State) : Prop := s.owner = some s.issuer

/-- The parameters an operation reads are loaded: everything outside 93 U1, U2 and U3 for a holder (R295). -/
def loadedFor (i : Instr) (s : State) : Bool :=
  match i with
  | .lock => true
  | .unlock => true
  | .enable n => s.clk.isSome && (s.fmt.get n).isSome && (s.req.get n).isSome
  | .disable => true
  | .setclk rate => rateInRange rate
  | .setreq _ _ => true
  | .setfmt _ _ _ => true
  | .sette _ => true
  | .configure _ _ _ => true
  | .solve n => s.clk.isSome && (s.req.get n).isSome
  | .wrcmd _ => s.parMode.isSome
  | .wrdata _ => s.parMode.isSome
  | .rddata _ => s.parMode.isSome
  | .xfer _ _ _ => true

/-- The spec gives the operation a behaviour in this state (93 U1, U2, U3): its parameters are loaded, or it needs the lock
and the issuer is not the holder, which is decided first (R265). -/
def specified (i : Instr) (s : State) : Prop :=
  loadedFor i s = true ∨ (needsLock i = true ∧ ¬ s.issuerHolds)

/-! ## Assumptions on the environment (R266) -/

/-- The operation is XFER. -/
def isXfer : Instr → Bool
  | .lock => false
  | .unlock => false
  | .enable _ => false
  | .disable => false
  | .setclk _ => false
  | .setreq _ _ => false
  | .setfmt _ _ _ => false
  | .sette _ => false
  | .configure _ _ _ => false
  | .solve _ => false
  | .wrcmd _ => false
  | .wrdata _ => false
  | .rddata _ => false
  | .xfer _ _ _ => true

/-- The next turn serves an XFER that is accepted: its requester holds the lock and nothing is pending
(43_transfer_engine.md R204). -/
def acceptsTransfer (s : State) : Bool :=
  match s.schedule with
  | .serve r :: _ =>
    match fetch r s with
    | .run i _ => isXfer i && decide (s.owner = some r) && !s.xferPending
    | .illegal _ => false
    | .stop _ => false
  | .grant _ :: _ => false
  | .frameDone :: _ => false
  | .reset :: _ => false
  | [] => false

/-- The next turn is a FRAME_DONE. -/
def raisesFrameDone (s : State) : Bool := decide (s.schedule.head? = some .frameDone)

/-- How many accepted XFERs have not had their frame-done after the next step, when `owed` have not before it. A DISABLE and
a reset cancel nothing in the bus engine: a late frame-done can still come (70_reset_and_hazards.md R292, R313; log 26). -/
def owedAfter (owed : Nat) (s : State) : Nat :=
  if raisesFrameDone s then owed - 1 else if acceptsTransfer s then owed + 1 else owed

/-- E1 for the next `k` steps of the run from `s`: each FRAME_DONE finds an accepted XFER before it that has not had its own. -/
def oncePerTransferFor : (k owed : Nat) → State → Bool
  | 0, _, _ => true
  | k + 1, owed, s =>
    (!raisesFrameDone s || decide (0 < owed)) &&
      (match step s with
        | .next t => oncePerTransferFor k (owedAfter owed s) t
        | .fault _ => true
        | .refused _ => true)

/-- E1, once per transfer, of the whole run from `s`: "for each accepted XFER the engine raises at most one frame-done, after
the XFER" (R266). `owed` is how many XFERs accepted before `s` have not had theirs: 0 for a first start, more for a state
after earlier transfers, or after a reset that forgot them. It asks nothing of `xfer_pending`. -/
def EnvOncePerTransfer (owed : Nat) (s : State) : Prop := ∀ k, oncePerTransferFor k owed s = true

/-- E2, delivery needs the handler: a FRAME_DONE comes only while the handler is registered. -/
abbrev EnvNeedsHandler (s : State) : Prop := s.schedule.head? = some .frameDone → s.handlerRegistered = true

/-- E3, liveness: while a transfer is pending, a FRAME_DONE is still to come. -/
abbrev EnvLive (s : State) : Prop := s.xferPending = true → .frameDone ∈ s.schedule

/-! ## Solved timings (R51, R180 to R182) -/

/-- The ordering relations on the counts packed in Word A and Word B (R181), read back from the fields of R92 and R93. -/
structure OrderedWords (a b : Word) : Prop where
  weOff_gt_weOn : field a 13 10 < field a 19 14
  reOff_gt_reOn : field a 23 20 < field a 29 24
  csOff_gt_csOn : field a 3 0 < field a 9 4
  csOff_ge_weOff : field a 19 14 ≤ field a 9 4
  csOff_ge_reOff : field a 29 24 ≤ field a 9 4
  access_gt_reOn : field a 23 20 < field b 27 22
  weCycle_ge_weOff : field a 19 14 ≤ field b 5 0
  reCycle_ge_reOff : field a 29 24 ≤ field b 11 6

/-- The bits that belong to no field of the two words are zero (R92, R93). -/
abbrev UnusedZero (a b : Word) : Prop := field a 31 30 = 0 ∧ field b 21 18 = 0 ∧ field b 31 28 = 0

/-- `solved[n]` is the solution of the requirement and the clock now loaded (R25, R134, R183). -/
def SolvedIsCurrent (s : State) (n : Channel) : Prop :=
  ∃ clk req r, s.clk = some clk ∧ s.req.get n = some req
    ∧ solve req clk.periodPs Config.maxDiv = some r ∧ s.solved.get n = solvedOf r

/-! ## Invariants of the reachable states (R51) -/

/-- What holds between operations. -/
structure Invariant (s : State) : Prop where
  /-- `waiting` is in its canonical form, so it is a set (R33). -/
  waiting_rising : s.waiting.Pairwise (· < ·)
  /-- Every waiter is a requester of the instance (R33, D4). -/
  waiting_ports : ∀ w ∈ s.waiting, w < s.params.nReq
  /-- The holder is one requester of the instance (R51 c). -/
  owner_port : ∀ r, s.owner = some r → r < s.params.nReq
  /-- `pending_cb` has a value only if a transfer is pending (R51 b). -/
  callback_pending : s.pendingCb.isSome = true → s.xferPending = true
  /-- `handler_registered = enabled` (R51 d, R229). -/
  handler_enabled : s.handlerRegistered = s.enabled
  /-- `power_refs` is 1 when enabled and 0 otherwise (R51 d, R229). -/
  power_enabled : s.powerRefs = if s.enabled then 1 else 0
  /-- A loaded clock period is at least 1 (R21). -/
  period_positive : ∀ clk, s.clk = some clk → 1 ≤ clk.periodPs
  /-- CONTROL bits 31:5 are zero (R36, U13). -/
  control_upper : field s.regs.control 31 5 = 0
  /-- CS_SEL is never 3 (R94). -/
  control_select : field s.regs.control 3 2 ≤ 2
  /-- A converted timing is the one of the loaded requirement and clock (R51 a, R134). -/
  converted_current : ∀ n, s.converted n = true → SolvedIsCurrent s n

/-- The values R52 gives for reset, on every component it gives one for; REVISION reads as `REV`. What R52 calls
unspecified is not named. -/
structure ResetTable (s : State) : Prop where
  clk : s.clk = none
  req : ∀ n, s.req.get n = none
  fmt : ∀ n, s.fmt.get n = none
  teActive : s.teActive = false
  converted : ∀ n, s.converted n = false
  parMode : s.parMode = none
  owner : s.owner = none
  enabled : s.enabled = false
  handlerRegistered : s.handlerRegistered = false
  powerRefs : s.powerRefs = 0
  xferPending : s.xferPending = false
  pendingCb : s.pendingCb = none
  fault : s.fault = false
  waiting : s.waiting = []
  revision : (regValue .revision s).1 = s.params.rev
  control : s.regs.control = 0x00000000#32
  trace : s.trace = []

/-- The next turn serves requester `r`, whose port presents the operation `i`; `u` is the state exec is given: the turn is
used up, the packet is taken and `r` is the issuer (20_memory.md R75, 30_encoding.md R101). -/
def Serves (s : State) (r : Nat) (i : Instr) (u : State) : Prop :=
  ∃ ts rest, s.schedule = .serve r :: ts ∧ r < s.params.nReq ∧ r ∉ s.waiting
    ∧ decode (s.portWords r) = .instr i rest
    ∧ u = { s with schedule := ts, issuer := r, ports := putPort s.ports r rest }

/-- The lock is held by a requester that waits for it: the deadlock of R223. -/
def Deadlocked (s : State) : Prop := ∃ r, s.owner = some r ∧ r ∈ s.waiting

end Sys2Proof.Machine
end

