-- ==== Sys2Proof/Certificates/Slice0/Obligations.lean ====
section
/-! DEFINITION. The statements for the provers. Each says in its docstring which rule of spec/ it formalises or rests on. An equation
`exec i s = .next { s with ... }` says what the operation writes and, by the record update, that it leaves everything else. -/

open Sys2Proof Sys2Proof.Machine

/-! ## Encoding -/

/-- Decoding the packet of a well-formed operation gives the operation back, and leaves the words after it
(30_encoding.md R101 to R107). -/
def Obligations.DecodeOfEncode : Prop :=
  ∀ (i : Instr) (rest : List Word), i.wf = true → decode (encode i ++ rest) = .instr i rest

/-- Every legal packet is the encoding of the operation it decodes to: no other words stand for it
(30_encoding.md R101 to R108). -/
def Obligations.LegalPacketIsTheEncoding : Prop :=
  ∀ (ws rest : List Word) (i : Instr), decode ws = .instr i rest → i.wf = true ∧ ws = encode i ++ rest

/-- No header word matches two rows of the opcode table (30_encoding.md R103). -/
def Obligations.OpcodeRowsDisjoint : Prop :=
  ∀ h : Word, opTable.Pairwise (fun a b => ¬ (h &&& a.mask = a.pattern ∧ h &&& b.mask = b.pattern))

/-- A header with a reserved OPC, or with a bit of RSV set, is illegal and consumes itself alone
(30_encoding.md R108, R109). -/
def Obligations.ReservedHeaderIsIllegal : Prop :=
  ∀ (h : Word) (ws : List Word),
    (field h 31 24 = 0x00 ∨ (0x05 ≤ field h 31 24 ∧ field h 31 24 ≤ 0x0F)
      ∨ (0x14 ≤ field h 31 24 ∧ field h 31 24 ≤ 0x1F) ∨ (0x22 ≤ field h 31 24 ∧ field h 31 24 ≤ 0x2F)
      ∨ 0x34 ≤ field h 31 24 ∨ field h 23 17 ≠ 0) →
    decode (h :: ws) = .illegal .header ws

/-- R104: byte i of a buffer is bits 8*(i mod 4)+7 : 8*(i mod 4) of word i div 4, there are ceil_div(len, 4) words, and the
bytes of the last word beyond the buffer are zero. -/
def Obligations.BytesPackLittleEndian : Prop :=
  ∀ bs : List Byte,
    (packBytes bs).length = ceilDiv bs.length 4
    ∧ (∀ i, (h : i < bs.length) →
        ((packBytes bs).getD (i / 4) 0).extractLsb' (8 * (i % 4)) 8 = bs[i])
    ∧ (∀ i, bs.length ≤ i → i < 4 * ceilDiv bs.length 4 →
        ((packBytes bs).getD (i / 4) 0).extractLsb' (8 * (i % 4)) 8 = 0)

/-- Words written out from the tables of 30_encoding.md decode to the operations they stand for, one of every format. -/
def Obligations.WrittenWordsDecode : Prop :=
  decode [0x01000000] = .instr .lock []
  ∧ decode [0x03010000] = .instr (.enable .ch1) []
  ∧ decode [0x12011810] = .instr (.setfmt .ch1 24 16) []
  ∧ decode [0x13000001] = .instr (.sette true) []
  ∧ decode [0x10000000, 0x0000c350] = .instr (.setclk 50000) []
  ∧ decode [0x30000001, 0x0000002c] = .instr (.wrcmd [0x2c]) []
  ∧ decode [0x33000001, 0x00f00140, 0x00001000, 0x00002000]
      = .instr (.xfer 320 240 (some ⟨0x1000, 0x2000⟩)) []

/-! ## Steps -/

/-- A step that serves a requester is exec of the operation at its port, in the state with the turn used up, the packet
taken and the requester made the issuer (20_memory.md R74, R75). -/
def Obligations.StepRunsDecodedOperation : Prop :=
  ∀ (s u : State) (r : Nat) (i : Instr), Serves s r i u → step s = exec i u

/-- A word placed by withFetchWord is the operation the very next step runs, as requester 0's; nothing but the port, the
schedule and requester 0's own waiting is changed for it. The placement is the model's (log 13). -/
def Obligations.PlacedWordRunsNext : Prop :=
  ∀ (s : State) (nbits w : Nat) (i : Instr), decodeTableWord nbits w = some i →
    ∃ ports, step (s.withFetchWord nbits w)
      = exec i { s with waiting := s.waiting.filter (fun v => v != 0), issuer := 0, ports := ports }

/-- An illegal packet is answered with IllegalCommand and changes no state, `fault` included; only the words it consumes
leave the port (60_exceptions.md R260, 30_encoding.md R108). -/
def Obligations.IllegalPacketAnswered : Prop :=
  ∀ (s : State) (r : Nat) (ts : List Turn) (why : Illegal) (rest : List Word),
    s.schedule = .serve r :: ts → r < s.params.nReq → r ∉ s.waiting →
    decode (s.portWords r) = .illegal why rest →
    step s = .next { s with
      schedule := ts, issuer := r, ports := putPort s.ports r rest,
      trace := s.trace ++ [.resp r .illegalCommand []] }

/-- A step that is not a reset appends events to the trace and removes none, and no step changes the parameters of the
instance (10_state.md R44, R50, 20_memory.md R76). -/
def Obligations.StepsExtendTheTraceAndKeepParameters : Prop :=
  ∀ s t : State, step s = .next t →
    t.params = s.params ∧ (s.schedule.head? ≠ some .reset → ∃ es, t.trace = s.trace ++ es)

/-! ## Reset -/

/-- R52: State.reset has every value the table gives, and so has the state after a reset event, whatever came before; the
parameters stay. -/
def Obligations.ResetLeavesTheTable : Prop :=
  ResetTable State.reset
  ∧ ∀ (s : State) (ts : List Turn), s.schedule = .reset :: ts →
      ∃ t, step s = .next t ∧ ResetTable t ∧ t.params = s.params ∧ t.schedule = ts ∧ t.ports = s.ports

/-! ## The lock -/

/-- R221: LOCK takes a free lock and is answered; a taken lock makes the issuer wait with no response; the grant step is
possible exactly when the lock is free and the chosen requester waits, and then answers it. -/
def Obligations.LockRequestAndGrant : Prop :=
  (∀ s : State, s.owner = none →
    exec .lock s = .next { s with owner := some s.issuer, trace := s.trace ++ [.resp s.issuer .ok []] })
  ∧ (∀ (s : State) (o : Nat), s.owner = some o →
      ∃ ws, exec .lock s = .next { s with waiting := ws } ∧ ∀ w, w ∈ ws ↔ w = s.issuer ∨ w ∈ s.waiting)
  ∧ (∀ (s : State) (w : Nat) (ts : List Turn), s.schedule = .grant w :: ts → s.owner = none → w ∈ s.waiting →
      ∃ ws, step s = .next { s with
          schedule := ts, waiting := ws, owner := some w, trace := s.trace ++ [.resp w .ok []] }
        ∧ ∀ v, v ∈ ws ↔ v ∈ s.waiting ∧ v ≠ w)
  ∧ (∀ (s t : State) (w : Nat) (ts : List Turn), s.schedule = .grant w :: ts → step s = .next t →
      s.owner = none ∧ w ∈ s.waiting)

/-- R222: UNLOCK frees the lock from the holder, changes nothing from anyone else, and is always answered OK. -/
def Obligations.UnlockReleasesFromHolderOnly : Prop :=
  (∀ s : State, s.owner = some s.issuer →
    exec .unlock s = .next { s with owner := none, trace := s.trace ++ [.resp s.issuer .ok []] })
  ∧ (∀ s : State, s.owner ≠ some s.issuer →
    exec .unlock s = .next { s with trace := s.trace ++ [.resp s.issuer .ok []] })

/-- R223: a LOCK by the holder makes it wait for itself, and from then on every step that is not a reset leaves it holding
and waiting, and no grant is possible for anyone. -/
def Obligations.HolderLockDeadlocks : Prop :=
  (∀ s : State, s.owner = some s.issuer →
    ∃ t, exec .lock s = .next t ∧ t.owner = some s.issuer ∧ s.issuer ∈ t.waiting)
  ∧ (∀ (s t : State) (r : Nat), s.owner = some r → r ∈ s.waiting → s.schedule.head? ≠ some .reset →
      step s = .next t → t.owner = some r ∧ r ∈ t.waiting)
  ∧ (∀ (s : State) (r w : Nat), s.owner = some r → r ∈ s.waiting → s.schedule.head? = some (.grant w) →
      step s = .fault .lockHeld)

/-- The controller's transitions: the holder changes only by LOCK, UNLOCK, the grant step and reset; `enabled` changes only by
ENABLE from the holder, to 1, by DISABLE from the holder, to 0, and by reset, to 0 (44_bus_controller.md R230, 60_exceptions.md
R270, 10_state.md R28). -/
def Obligations.ControllerTransitions : Prop :=
  (∀ s t : State, step s = .next t → t.owner ≠ s.owner →
    (∃ r u, Serves s r .lock u ∧ s.owner = none ∧ t.owner = some r)
    ∨ (∃ r u, Serves s r .unlock u ∧ s.owner = some r ∧ t.owner = none)
    ∨ (∃ w, s.schedule.head? = some (.grant w) ∧ s.owner = none ∧ w ∈ s.waiting ∧ t.owner = some w)
    ∨ (s.schedule.head? = some .reset ∧ t.owner = none))
  ∧ (∀ s t : State, step s = .next t → t.enabled ≠ s.enabled →
    (∃ r n u, Serves s r (.enable n) u ∧ s.owner = some r ∧ t.enabled = true)
    ∨ (∃ r u, Serves s r .disable u ∧ s.owner = some r ∧ t.enabled = false)
    ∨ (s.schedule.head? = some .reset ∧ t.enabled = false))

/-! ## Contract violations -/

/-- R262: a lock-requiring operation by a requester that is not the holder sets `fault` and changes nothing else, sends no
response and blocks nobody; `fault` then stays set until a reset; and while it is set the block goes on executing by the same
rules. -/
def Obligations.ViolationSetsStickyFault : Prop :=
  (∀ (i : Instr) (s : State), needsLock i = true → s.owner ≠ some s.issuer →
    exec i s = .next { s with fault := true })
  ∧ (∀ s t : State, step s = .next t → s.fault = true → s.schedule.head? ≠ some .reset → t.fault = true)
  ∧ (∀ (i : Instr) (s t : State), exec i s = .next t →
      exec i { s with fault := true } = .next { t with fault := true })

/-- R263: the only way `fault` is set is a lock-requiring operation issued by a requester that is not the owner, a free lock
included. -/
def Obligations.FaultOnlyByNonHolder : Prop :=
  ∀ s t : State, step s = .next t → s.fault = false → t.fault = true →
    ∃ r i u, Serves s r i u ∧ needsLock i = true ∧ s.owner ≠ some r

/-- A step that serves a requester that does not hold the lock reaches no register: the register file is as it was and the
step's only events are responses (60_exceptions.md R271). -/
def Obligations.NonHolderReachesNoRegister : Prop :=
  ∀ (s t : State) (r : Nat), s.schedule.head? = some (.serve r) → s.owner ≠ some r → step s = .next t →
    t.regs = s.regs ∧ ∃ es, t.trace = s.trace ++ es ∧ ∀ e ∈ es, ∃ q st, e = .resp q st []

/-- Where an operation ends in a next state: exactly outside the three unspecified cases 93 U1, U2, U3; and no operation ends
in a model fault. The order of the lock check before U2 and U3 is the model's reading (log 9). -/
def Obligations.CompletesExactlyWhereSpecified : Prop :=
  ∀ (i : Instr) (s : State),
    (specified i s → ∃ t, exec i s = .next t) ∧ (¬ specified i s → ∃ why, exec i s = .refused why)

/-- The three refusals by name: a clock rate outside 1 to 10^9, an unloaded parameter, a stream before any CONFIGURE
(93_implementation_defined.md Part A, U1 to U3; the model's name for each; log 9). -/
def Obligations.UnspecifiedCasesRefused : Prop :=
  (∀ (rate : Word) (s : State), rate.toNat = 0 ∨ 1000000000 < rate.toNat →
    exec (.setclk rate) s = .refused .clockRateUnspecified)
  ∧ (∀ (n : Channel) (s : State), s.owner = some s.issuer → (s.clk = none ∨ s.req.get n = none) →
      exec (.solve n) s = .refused .parameterUnloaded)
  ∧ (∀ (n : Channel) (s : State), s.owner = some s.issuer →
      (s.clk = none ∨ s.req.get n = none ∨ s.fmt.get n = none) →
      exec (.enable n) s = .refused .parameterUnloaded)
  ∧ (∀ (bytes : List Byte) (len : Half) (s : State), s.owner = some s.issuer → s.parMode = none →
      exec (.wrcmd bytes) s = .refused .noParallelMode ∧ exec (.wrdata bytes) s = .refused .noParallelMode
        ∧ exec (.rddata len) s = .refused .noParallelMode)

/-! ## Load operations -/

/-- R130: SETCLK loads `period_ps = 10^9 div rate_khz`, clears both `converted` flags and answers OK; nothing else changes, but
that the other fields of the two solved timings hold no value any more (10_state.md R25; any value, log 25). -/
def Obligations.SetclkLoadsThePeriod : Prop :=
  ∀ (rate : Word) (s : State), 1 ≤ rate.toNat → rate.toNat ≤ 1000000000 →
    ∃ solved draws, (∀ n, (PerChannel.get solved n).converted = false)
      ∧ exec (.setclk rate) s = .next { s with
          clk := some ⟨1000000000 / rate.toNat⟩, solved := solved, draws := draws,
          trace := s.trace ++ [.resp s.issuer .ok []] }

/-- R131: SETREQ replaces the requirement of one channel whole, clears its `converted` and answers OK; nothing else changes, but
that the other fields of that solved timing hold no value any more (10_state.md R25; any value, log 25). -/
def Obligations.SetreqReplacesTheRequirement : Prop :=
  ∀ (n : Channel) (req : TimingReq) (s : State),
    ∃ timing draws, SolvedTiming.converted timing = false
      ∧ exec (.setreq n req) s = .next { s with
          req := s.req.set n (some req), solved := s.solved.set n timing, draws := draws,
          trace := s.trace ++ [.resp s.issuer .ok []] }

/-- R132 and R133: SETFMT loads depth and lines of one channel, any values, SETTE loads the tear-elimination flag, and both
answer OK; no register and no `par_mode` change. -/
def Obligations.SetfmtAndSetteLoad : Prop :=
  (∀ (n : Channel) (depth lines : Byte) (s : State),
    exec (.setfmt n depth lines) s = .next { s with
      fmt := s.fmt.set n (some ⟨depth, lines⟩), trace := s.trace ++ [.resp s.issuer .ok []] })
  ∧ (∀ (flag : Bool) (s : State),
    exec (.sette flag) s = .next { s with teActive := flag, trace := s.trace ++ [.resp s.issuer .ok []] })

/-! ## The formatter -/

/-- R141: the formatter answers UnsupportedFormat exactly when the depth is not one of 12, 16, 18, 24 or the line count is
not one of 8, 9, 12, 16, whatever the ratio. -/
def Obligations.UnsupportedFormatExactly : Prop :=
  ∀ (L : CfgLayout) (depth lines : Nat),
    formatWords L depth lines = .error .unsupportedFormat
      ↔ (depth ∉ [12, 16, 18, 24] ∨ lines ∉ [8, 9, 12, 16])

/-- R142: the cycle format is the ratio 1, 2 or 3, or "3:2" when twice the depth is three times the line count, and anything else
is UnsupportedRatio, the pair 11 over 4 among it. -/
def Obligations.ClassifyByRatio : Prop :=
  (∀ depth lines : Nat, 1 ≤ lines →
    (classify depth lines = .ok .f11 ↔ depth = lines)
    ∧ (classify depth lines = .ok .f21 ↔ depth = 2 * lines)
    ∧ (classify depth lines = .ok .f31 ↔ depth = 3 * lines)
    ∧ (classify depth lines = .ok .f32 ↔ 2 * depth = 3 * lines)
    ∧ (classify depth lines = .error .unsupportedRatio
        ↔ depth ≠ lines ∧ depth ≠ 2 * lines ∧ depth ≠ 3 * lines ∧ 2 * depth ≠ 3 * lines))
  ∧ classify 11 4 = .error .unsupportedRatio

/-- The sixteen valid pairs, nine with their cycle format and their words in the default layout and seven UnsupportedRatio; with
"3:2" the line count is even, so its half is exact (41_bus_formatter.md R143, R144, R146, the spec's own inferences; the layout
and part of the cycle table are the spec's own choice, log 19). -/
def Obligations.FormatTable : Prop :=
  formatWords defaultLayout 12 8 = .ok ⟨0x00300600, 0x00000008, 0x00040004, 0x00080000, .m8⟩
  ∧ formatWords defaultLayout 12 9 = .error .unsupportedRatio
  ∧ formatWords defaultLayout 12 12 = .ok ⟨0x00300002, 0x0000000c, 0x00000000, 0x00000000, .m12⟩
  ∧ formatWords defaultLayout 12 16 = .error .unsupportedRatio
  ∧ formatWords defaultLayout 16 8 = .ok ⟨0x00300220, 0x00000008, 0x00000008, 0x00000000, .m8⟩
  ∧ formatWords defaultLayout 16 9 = .error .unsupportedRatio
  ∧ formatWords defaultLayout 16 12 = .error .unsupportedRatio
  ∧ formatWords defaultLayout 16 16 = .ok ⟨0x00300023, 0x00000010, 0x00000000, 0x00000000, .m16⟩
  ∧ formatWords defaultLayout 18 8 = .error .unsupportedRatio
  ∧ formatWords defaultLayout 18 9 = .ok ⟨0x00300241, 0x00000009, 0x00000009, 0x00000000, .m9⟩
  ∧ formatWords defaultLayout 18 12 = .ok ⟨0x00300642, 0x0000000c, 0x00060006, 0x000c0000, .m12⟩
  ∧ formatWords defaultLayout 18 16 = .error .unsupportedRatio
  ∧ formatWords defaultLayout 24 8 = .ok ⟨0x00300460, 0x00000008, 0x00000008, 0x00000008, .m8⟩
  ∧ formatWords defaultLayout 24 9 = .error .unsupportedRatio
  ∧ formatWords defaultLayout 24 12 = .ok ⟨0x00300262, 0x0000000c, 0x0000000c, 0x00000000, .m12⟩
  ∧ formatWords defaultLayout 24 16 = .ok ⟨0x00300663, 0x00000010, 0x00080008, 0x00100000, .m16⟩
  ∧ classify 12 8 = .ok .f32 ∧ classify 12 12 = .ok .f11 ∧ classify 16 8 = .ok .f21 ∧ classify 16 16 = .ok .f11
  ∧ classify 18 9 = .ok .f21 ∧ classify 18 12 = .ok .f32 ∧ classify 24 8 = .ok .f31 ∧ classify 24 12 = .ok .f21
  ∧ classify 24 16 = .ok .f32
  ∧ (∀ depth lines : Nat, classify depth lines = .ok .f32 →
      2 * depth = 3 * lines ∧ lines % 2 = 0 ∧ 2 * (lines / 2) = lines)

/-- CONFIGURE by the holder of a pair the formatter accepts: the eight register accesses in their order, the five registers,
`par_mode`, and nothing else (41_bus_formatter.md R147 to R149); the words are those of FormatTable. -/
def Obligations.ConfigureWritesTheFormat : Prop :=
  ∀ (n : Channel) (depth lines : Byte) (w : FormatWords) (s : State), s.owner = some s.issuer →
    formatWords s.params.layout depth.toNat lines.toNat = .ok w →
    exec (.configure n depth lines) s = .next { s with
      regs := { s.regs with
        control := controlSelected (setField s.regs.control 3 2 0) n,
        config := s.regs.config.set n w.config,
        dataCycle1 := s.regs.dataCycle1.set n w.cycle1,
        dataCycle2 := s.regs.dataCycle2.set n w.cycle2,
        dataCycle3 := s.regs.dataCycle3.set n w.cycle3 },
      parMode := some w.mode,
      trace := s.trace ++
        [.regR 0x040 s.regs.control, .regW 0x040 (setField s.regs.control 3 2 0),
         .regW (0x060 + 24 * n.num) w.config, .regW (0x06c + 24 * n.num) w.cycle1,
         .regW (0x070 + 24 * n.num) w.cycle2, .regW (0x074 + 24 * n.num) w.cycle3,
         .regR 0x040 (setField s.regs.control 3 2 0),
         .regW 0x040 (controlSelected (setField s.regs.control 3 2 0) n), .resp s.issuer .ok []] }

/-- R151: a CONFIGURE that returns an error has accessed no register, produced no event but its response, and changed no
state. -/
def Obligations.FailedConfigureChangesNothing : Prop :=
  ∀ (n : Channel) (depth lines : Byte) (e : Status) (s : State), s.owner = some s.issuer →
    formatWords s.params.layout depth.toNat lines.toNat = .error e →
    exec (.configure n depth lines) s = .next { s with trace := s.trace ++ [.resp s.issuer e []] }

/-- What each operation does to CONTROL, bit by bit. CONFIGURE of an accepted format leaves CS_SEL `n + 1` and BYPASS 0, and so
does an ENABLE whose power is granted, whose handler is free and whose format is accepted; an ENABLE that fails at its power, its
handler or its format leaves CONTROL alone, and on a free answer it does the one or the other; an accepted XFER sets ENABLE, and
sets ITE unless tear elimination is active; FRAME_DONE clears ENABLE; every other bit is as it was; and no step but these and a
reset changes CONTROL. The last three clauses say the same of the word functions, the intermediate CS_SEL 0 among them
(10_state.md R36, 30_encoding.md R94; the codes of CS_SEL and BYPASS are the spec's own, log 19). -/
def Obligations.ControlBitByBit : Prop :=
  (∀ (n : Channel) (depth lines : Byte) (w : FormatWords) (s : State), s.owner = some s.issuer →
    formatWords s.params.layout depth.toNat lines.toNat = .ok w →
    ∃ t, exec (.configure n depth lines) s = .next t
      ∧ field t.regs.control 3 2 = n.num + 1 ∧ t.regs.control.getLsbD 1 = false
      ∧ (∀ i, i ≠ 1 → i ≠ 2 → i ≠ 3 → t.regs.control.getLsbD i = s.regs.control.getLsbD i))
  ∧ (∀ (n : Channel) (clk : ClockContext) (fmt : BusFormat) (req : TimingReq) (s : State), s.owner = some s.issuer →
    s.clk = some clk → s.fmt.get n = some fmt → s.req.get n = some req →
    ∃ t, exec (.enable n) s = .next t
      ∧ (t.regs.control = s.regs.control
        ∨ (field t.regs.control 3 2 = n.num + 1 ∧ t.regs.control.getLsbD 1 = false
          ∧ (∀ i, i ≠ 1 → i ≠ 2 → i ≠ 3 → t.regs.control.getLsbD i = s.regs.control.getLsbD i)))
      ∧ (∀ oks w, s.powerAnswers = true :: oks → s.handlerRegistered = false →
        formatWords s.params.layout fmt.depth.toNat fmt.lines.toNat = .ok w →
        field t.regs.control 3 2 = n.num + 1 ∧ t.regs.control.getLsbD 1 = false
          ∧ (∀ i, i ≠ 1 → i ≠ 2 → i ≠ 3 → t.regs.control.getLsbD i = s.regs.control.getLsbD i))
      ∧ ((∃ oks, s.powerAnswers = false :: oks) ∨ s.handlerRegistered = true
          ∨ (∃ e, formatWords s.params.layout fmt.depth.toNat fmt.lines.toNat = .error e) →
        t.regs.control = s.regs.control))
  ∧ (∀ (width height : Half) (callback : Option Callback) (s : State), s.owner = some s.issuer → s.xferPending = false →
    ∃ t, exec (.xfer width height callback) s = .next t
      ∧ t.regs.control.getLsbD 0 = true
      ∧ t.regs.control.getLsbD 4 = (s.regs.control.getLsbD 4 || !s.teActive)
      ∧ (∀ i, i ≠ 0 → i ≠ 4 → t.regs.control.getLsbD i = s.regs.control.getLsbD i))
  ∧ (∀ (s : State) (ts : List Turn), s.schedule = .frameDone :: ts →
    ∃ t, step s = .next t ∧ t.regs.control.getLsbD 0 = false
      ∧ (∀ i, i ≠ 0 → t.regs.control.getLsbD i = s.regs.control.getLsbD i))
  ∧ (∀ s t : State, step s = .next t → t.regs.control ≠ s.regs.control →
    s.schedule.head? = some .frameDone ∨ s.schedule.head? = some .reset
    ∨ ∃ r i u, Serves s r i u ∧ s.owner = some r
        ∧ ((∃ n depth lines, i = .configure n depth lines) ∨ (∃ n, i = .enable n)
          ∨ (∃ width height callback, i = .xfer width height callback)))
  ∧ (∀ (v : Word) (n : Channel),
    field (setField v 3 2 0) 3 2 = 0
    ∧ (∀ i, i ≠ 2 → i ≠ 3 → (setField v 3 2 0).getLsbD i = v.getLsbD i)
    ∧ field (controlSelected (setField v 3 2 0) n) 3 2 = n.num + 1
    ∧ (controlSelected (setField v 3 2 0) n).getLsbD 1 = false
    ∧ (∀ i, i ≠ 1 → i ≠ 2 → i ≠ 3 → (controlSelected (setField v 3 2 0) n).getLsbD i = v.getLsbD i))
  ∧ (∀ (v : Word) (te : Bool),
    (controlStarted v te).getLsbD 0 = true
    ∧ (controlStarted v te).getLsbD 4 = (v.getLsbD 4 || !te)
    ∧ (∀ i, i ≠ 0 → i ≠ 4 → (controlStarted v te).getLsbD i = v.getLsbD i))
  ∧ (∀ v : Word,
    (setField v 0 0 0).getLsbD 0 = false ∧ (∀ i, i ≠ 0 → (setField v 0 0 0).getLsbD i = v.getLsbD i))

/-! ## The solver -/

/-- The raw count of a field is the ceiling of its picoseconds over the tick, and a divider is accepted exactly when the raw
counts fit (42_timing_solver.md R165, R187, the spec's own inferences from R163 to R167). -/
def Obligations.AcceptedExactlyByRawCounts : Prop :=
  (∀ (ps : Ten Nat) (p d : Nat), 1 ≤ p → 1 ≤ d → rawAt ps p d = tenMap (fun x => ceilDiv x (p * d)) ps)
  ∧ (∀ (ps : Ten Nat) (p d : Nat),
    (attempt ps p d).isSome = true ↔
      ((rawAt ps p d).csOn ≤ 15 ∧ (rawAt ps p d).weOn ≤ 15 ∧ (rawAt ps p d).reOn ≤ 15
        ∧ (rawAt ps p d).csOff ≤ 63 ∧ (rawAt ps p d).weOff ≤ 63 ∧ (rawAt ps p d).reOff ≤ 63
        ∧ (rawAt ps p d).access ≤ 63 ∧ (rawAt ps p d).weCycle ≤ 63 ∧ (rawAt ps p d).reCycle ≤ 63
        ∧ (rawAt ps p d).csPulse ≤ 63))

/-- The raw count at divider 2 is the one at divider 1 halved and rounded up; divider 1 is chosen exactly when every 4-bit count
there is at most 15 and every 6-bit count at most 63, else divider 2 exactly when they are at most 30 and 126, else the
requirement is unsatisfiable (42_timing_solver.md R188, the spec's own inference from R165 and R187). -/
def Obligations.DividerInClosedForm : Prop :=
  ∀ (req : TimingReq) (p : Nat), 1 ≤ p →
    (∀ x, ceilDiv x (2 * p) = ceilDiv (ceilDiv x p) 2)
    ∧ rawAt (reqPs req) p 2 = tenMap (fun c => ceilDiv c 2) (rawAt (reqPs req) p 1)
    ∧ let t := rawAt (reqPs req) p 1
      let within (on off : Nat) : Prop :=
        t.csOn ≤ on ∧ t.weOn ≤ on ∧ t.reOn ≤ on ∧ t.csOff ≤ off ∧ t.weOff ≤ off ∧ t.reOff ≤ off
          ∧ t.access ≤ off ∧ t.weCycle ≤ off ∧ t.reCycle ≤ off ∧ t.csPulse ≤ off
      (within 15 63 → ∃ r, solve req p 2 = some r ∧ r.div = 1)
      ∧ (¬ within 15 63 → within 30 126 → ∃ r, solve req p 2 = some r ∧ r.div = 2)
      ∧ (¬ within 30 126 → solve req p 2 = none)

/-- A requirement solvable with `k` dividers has the same solution with any larger number (42_timing_solver.md R184, inferred
there from R161). -/
def Obligations.MoreDividersSameSolution : Prop :=
  ∀ (req : TimingReq) (p k k' : Nat) (r : Solution), solve req p k = some r → k ≤ k' → solve req p k' = some r

/-- R180: every result is converted and its words have all their sub-fields within their widths, each being the adjusted count
of its field at the chosen divider. -/
def Obligations.SolvedWordsHoldTheCounts : Prop :=
  ∀ (req : TimingReq) (p k : Nat) (r : Solution), solve req p k = some r →
    let t := adjustedAt (reqPs req) p r.div
    (solvedOf r).converted = true
    ∧ field r.wordA 3 0 = t.csOn ∧ field r.wordA 9 4 = t.csOff ∧ field r.wordA 13 10 = t.weOn
    ∧ field r.wordA 19 14 = t.weOff ∧ field r.wordA 23 20 = t.reOn ∧ field r.wordA 29 24 = t.reOff
    ∧ field r.wordB 5 0 = t.weCycle ∧ field r.wordB 11 6 = t.reCycle ∧ field r.wordB 17 12 = t.csPulse
    ∧ field r.wordB 27 22 = t.access ∧ UnusedZero r.wordA r.wordB
    ∧ t.csOn ≤ 15 ∧ t.weOn ≤ 15 ∧ t.reOn ≤ 15 ∧ t.csOff ≤ 63 ∧ t.weOff ≤ 63 ∧ t.reOff ≤ 63
    ∧ t.access ≤ 63 ∧ t.weCycle ≤ 63 ∧ t.reCycle ≤ 63 ∧ t.csPulse ≤ 63

/-- Every result's packed counts satisfy the ordering relations, the adjusted counts have the closed form the rule gives, the six
counts that a rule raises are at least 1, and neither word is zero (42_timing_solver.md R181, R182, inferred there from
R166). -/
def Obligations.SolvedWordsAreOrdered : Prop :=
  (∀ (req : TimingReq) (p k : Nat) (r : Solution), solve req p k = some r → OrderedWords r.wordA r.wordB)
  ∧ (∀ t : Ten Nat,
      (adjust t).weOff = max t.weOff (t.weOn + 1)
      ∧ (adjust t).reOff = max t.reOff (t.reOn + 1)
      ∧ (adjust t).csOff = max (max t.csOff (t.csOn + 1)) (max (adjust t).weOff (adjust t).reOff)
      ∧ (adjust t).access = max t.access (t.reOn + 1)
      ∧ (adjust t).weCycle = max t.weCycle (adjust t).weOff
      ∧ (adjust t).reCycle = max t.reCycle (adjust t).reOff
      ∧ (adjust t).csOn = t.csOn ∧ (adjust t).weOn = t.weOn ∧ (adjust t).reOn = t.reOn
      ∧ (adjust t).csPulse = t.csPulse)
  ∧ (∀ (req : TimingReq) (p k : Nat) (r : Solution), solve req p k = some r →
    1 ≤ field r.wordA 19 14 ∧ 1 ≤ field r.wordA 29 24 ∧ 1 ≤ field r.wordA 9 4 ∧ 1 ≤ field r.wordB 27 22
    ∧ 1 ≤ field r.wordB 5 0 ∧ 1 ≤ field r.wordB 11 6 ∧ r.wordA ≠ 0 ∧ r.wordB ≠ 0)

/-- The zero requirement is solved at divider 1, at any period, with the counts and the words 42_timing_solver.md R185 gives; and
the source's worked example of R186, step by step. -/
def Obligations.ZeroRequirementAndWorkedExample : Prop :=
  (∀ p : Nat, 1 ≤ p →
    rawAt (reqPs ⟨0, 0, 0, 0, 0, 0, 0, 0, 0, 0⟩) p 1 = ⟨0, 0, 0, 0, 0, 0, 0, 0, 0, 0⟩
    ∧ adjustedAt (reqPs ⟨0, 0, 0, 0, 0, 0, 0, 0, 0, 0⟩) p 1 = ⟨0, 1, 0, 1, 1, 0, 1, 1, 1, 0⟩
    ∧ ∃ r, solve ⟨0, 0, 0, 0, 0, 0, 0, 0, 0, 0⟩ p 2 = some r ∧ r.div = 1
      ∧ r.wordA = 0x01004010 ∧ r.wordB = 0x00400041 ∧ (solvedOf r).gran = 0)
  ∧ let req : TimingReq := ⟨0, 0, 9000, 18000, 0, 0, 0, 0, 0, 0⟩
    (roundedAt (reqPs req) 20000 1).weOn = 20000 ∧ (roundedAt (reqPs req) 20000 1).weOff = 20000
    ∧ (rawAt (reqPs req) 20000 1).weOn = 1 ∧ (rawAt (reqPs req) 20000 1).weOff = 1
    ∧ (adjustedAt (reqPs req) 20000 1).weOn = 1 ∧ (adjustedAt (reqPs req) 20000 1).weOff = 2
    ∧ ∃ r, solve req 20000 2 = some r ∧ r.div = 1

/-- SOLVE by the holder of a requirement that can be met: the four register accesses in their order, Word A, Word B and the bit
GRAN of one channel, `solved[n]`, and nothing else (42_timing_solver.md R175, R177). -/
def Obligations.SolveWritesTheTiming : Prop :=
  ∀ (n : Channel) (clk : ClockContext) (req : TimingReq) (r : Solution) (s : State), s.owner = some s.issuer →
    s.clk = some clk → s.req.get n = some req → solve req clk.periodPs 2 = some r →
    let old := s.regs.config.get n
    let new := setField old s.params.layout.granAt s.params.layout.granAt (BitVec.ofNat 32 (r.div - 1))
    exec (.solve n) s = .next { s with
      solved := s.solved.set n
        { converted := true, div := r.div, wordA := r.wordA, wordB := r.wordB,
          gran := BitVec.ofNat 1 (r.div - 1), rounded := r.rounded },
      regs := { s.regs with
        onoffTime := s.regs.onoffTime.set n r.wordA,
        cycleTime := s.regs.cycleTime.set n r.wordB,
        config := s.regs.config.set n new },
      trace := s.trace ++
        [.regW (0x064 + 24 * n.num) r.wordA, .regW (0x068 + 24 * n.num) r.wordB,
         .regR (0x060 + 24 * n.num) old, .regW (0x060 + 24 * n.num) new, .resp s.issuer .ok []] }

/-- R176: a SOLVE that fails writes no register and clears `solved[n].converted`, whatever an earlier requirement had; the other
fields of that solved timing hold no value any more (10_state.md R25; any value, log 25). -/
def Obligations.FailedSolveClearsConverted : Prop :=
  ∀ (n : Channel) (clk : ClockContext) (req : TimingReq) (s : State), s.owner = some s.issuer →
    s.clk = some clk → s.req.get n = some req → solve req clk.periodPs 2 = none →
    ∃ timing draws, SolvedTiming.converted timing = false
      ∧ exec (.solve n) s = .next { s with
          solved := s.solved.set n timing, draws := draws,
          trace := s.trace ++ [.resp s.issuer .timingUnsatisfiable []] }

/-- In the default layout CONFIGURE leaves GRAN 0, and SOLVE's write of GRAN changes bit 4 of CONFIG(n) and no other bit
(30_encoding.md R99, 41_bus_formatter.md R150; where GRAN lives is the spec's own choice, log 19). -/
def Obligations.GranIsBitFourAlone : Prop :=
  (∀ (depth lines : Nat) (w : FormatWords), formatWords defaultLayout depth lines = .ok w → w.config.getLsbD 4 = false)
  ∧ (∀ (v : Word) (g : BitVec 1),
      (setField v defaultLayout.granAt defaultLayout.granAt (g.zeroExtend 32)).getLsbD 4 = g.getLsbD 0
      ∧ ∀ i, i ≠ 4 →
        (setField v defaultLayout.granAt defaultLayout.granAt (g.zeroExtend 32)).getLsbD i = v.getLsbD i)

/-! ## Streams -/

/-- R193: the units of a buffer. In 8-line mode unit i is byte i; in 16-line mode there are len div 2 units and unit i holds
byte 2i in bits 7:0 and byte 2i+1 in bits 15:8; every bit above the unit is zero. -/
def Obligations.UnitsOfABuffer : Prop :=
  ∀ bs : List Byte,
    (streamUnits .byte bs).length = bs.length
    ∧ (∀ i, (h : i < bs.length) → (streamUnits .byte bs)[i]? = some (BitVec.ofNat 32 bs[i].toNat))
    ∧ (streamUnits .half bs).length = bs.length / 2
    ∧ (∀ i, (h : 2 * i + 1 < bs.length) →
        (streamUnits .half bs)[i]? = some (BitVec.ofNat 32 (bs[2 * i].toNat + 256 * bs[2 * i + 1].toNat)))

/-- R195 and R196: WRCMD, and WRDATA, by the holder in 8-line mode, and in 16-line mode with an even length, writes one unit
after another to CMD, or to DATA, answers OK and changes nothing but the trace. The units are those of UnitsOfABuffer. -/
def Obligations.WriteStreamsMoveUnits : Prop :=
  ∀ (bytes : List Byte) (u : UnitSize) (s : State), s.owner = some s.issuer →
    ((s.parMode = some .m8 ∧ u = .byte) ∨ (s.parMode = some .m16 ∧ bytes.length % 2 = 0 ∧ u = .half)) →
    exec (.wrcmd bytes) s = .next { s with
      trace := s.trace ++ (streamUnits u bytes).map (fun w => Event.regW 0x04c w) ++ [.resp s.issuer .ok []] }
    ∧ exec (.wrdata bytes) s = .next { s with
      trace := s.trace ++ (streamUnits u bytes).map (fun w => Event.regW 0x054 w) ++ [.resp s.issuer .ok []] }

/-- RDDATA by the holder, with the environment's answers named: one write of 0 and one read of READ per unit, the low byte or
two bytes of each answer in the response, and nothing else (43_transfer_engine.md R198). -/
def Obligations.ReadDataAnswers : Prop :=
  ∀ (len : Half) (u : UnitSize) (vs rest : List Word) (s : State), s.owner = some s.issuer →
    ((s.parMode = some .m8 ∧ u = .byte ∧ vs.length = len.toNat)
      ∨ (s.parMode = some .m16 ∧ u = .half ∧ 2 * vs.length = len.toNat)) →
    s.readAnswers = vs ++ rest →
    exec (.rddata len) s = .next { s with
      readAnswers := rest,
      trace := s.trace ++ vs.flatMap (fun v => [Event.regW 0x058 0, Event.regR 0x058 v])
        ++ [.resp s.issuer .ok (vs.flatMap (fun v =>
            match u with
            | .byte => [v.extractLsb' 0 8]
            | .half => [v.extractLsb' 0 8, v.extractLsb' 8 8]))] }

/-- RDDATA by the holder completes on ANY answers, named or free: it answers OK with exactly `len` bytes and changes only the
trace and what the environment supplies (43_transfer_engine.md R198, 10_state.md R45). -/
def Obligations.ReadDataCompletesOnAnyAnswers : Prop :=
  ∀ (len : Half) (s : State), s.owner = some s.issuer →
    (s.parMode = some .m8 ∨ (s.parMode = some .m16 ∧ len.toNat % 2 = 0)) →
    ∃ es bytes vs d, bytes.length = len.toNat
      ∧ exec (.rddata len) s = .next { s with
          readAnswers := vs, draws := d, trace := s.trace ++ es ++ [.resp s.issuer .ok bytes] }

/-- A stream in 9- or 12-line mode answers UnsupportedParallelMode for any length, one of odd length in 16-line mode
MisalignedLength; nothing is moved and nothing changes (43_transfer_engine.md R191, R192). -/
def Obligations.FailedStreamMovesNothing : Prop :=
  (∀ (bytes : List Byte) (len : Half) (s : State), s.owner = some s.issuer →
    (s.parMode = some .m9 ∨ s.parMode = some .m12) →
    let t := { s with trace := s.trace ++ [Event.resp s.issuer .unsupportedParallelMode []] }
    exec (.wrcmd bytes) s = .next t ∧ exec (.wrdata bytes) s = .next t ∧ exec (.rddata len) s = .next t)
  ∧ (∀ (bytes : List Byte) (len : Half) (s : State), s.owner = some s.issuer → s.parMode = some .m16 →
    let t := { s with trace := s.trace ++ [Event.resp s.issuer .misalignedLength []] }
    (bytes.length % 2 = 1 → exec (.wrcmd bytes) s = .next t ∧ exec (.wrdata bytes) s = .next t)
    ∧ (len.toNat % 2 = 1 → exec (.rddata len) s = .next t))

/-! ## Frame transfer -/

/-- XFER by the holder with nothing pending: PIXEL_CNT, then one read and one write of CONTROL, `xfer_pending` and the callback,
and nothing else (43_transfer_engine.md R204). -/
def Obligations.TransferStarts : Prop :=
  ∀ (width height : Half) (callback : Option Callback) (s : State), s.owner = some s.issuer → s.xferPending = false →
    let started := if s.teActive then s.regs.control ||| 0x00000001#32
      else (s.regs.control ||| 0x00000001#32) ||| 0x00000010#32
    exec (.xfer width height callback) s = .next { s with
      regs := { s.regs with pixelCnt := BitVec.ofNat 32 (width.toNat * height.toNat), control := started },
      xferPending := true, pendingCb := callback,
      trace := s.trace ++
        [.regW 0x044 (BitVec.ofNat 32 (width.toNat * height.toNat)), .regR 0x040 s.regs.control,
         .regW 0x040 started, .resp s.issuer .ok []] }

/-- R205: an accepted XFER becomes pending; through every step that is neither a FRAME_DONE nor a reset it stays pending and keeps
its callback, whoever holds the lock and whatever else is executed; and every XFER of a holder while one is pending fails with
TransferAlreadyPending and leaves PIXEL_CNT, CONTROL, the callback and all else as they were. The last clause is the second XFER
executed at once. -/
def Obligations.SecondTransferRefused : Prop :=
  (∀ (w h : Half) (c : Option Callback) (s : State), s.owner = some s.issuer → s.xferPending = false →
    ∃ t, exec (.xfer w h c) s = .next t ∧ t.xferPending = true ∧ t.pendingCb = c)
  ∧ (∀ s t : State, step s = .next t → s.xferPending = true →
    s.schedule.head? ≠ some .frameDone → s.schedule.head? ≠ some .reset →
    t.xferPending = true ∧ t.pendingCb = s.pendingCb)
  ∧ (∀ (w h : Half) (c : Option Callback) (s : State), s.owner = some s.issuer → s.xferPending = true →
    exec (.xfer w h c) s = .next { s with trace := s.trace ++ [.resp s.issuer .transferAlreadyPending []] })
  ∧ (∀ (w h w' h' : Half) (c c' : Option Callback) (s t : State), s.owner = some s.issuer → s.xferPending = false →
    exec (.xfer w h c) s = .next t →
    exec (.xfer w' h' c') t = .next { t with trace := t.trace ++ [.resp t.issuer .transferAlreadyPending []] })

/-- The pixel count an accepted XFER leaves in PIXEL_CNT is the exact product of width and height, which fits 32 bits
(30_encoding.md R98, 43_transfer_engine.md R204). -/
def Obligations.PixelCountDoesNotWrap : Prop :=
  ∀ (width height : Half) (callback : Option Callback) (s : State), s.owner = some s.issuer → s.xferPending = false →
    width.toNat * height.toNat ≤ 4294836225
    ∧ ∃ t, exec (.xfer width height callback) s = .next t ∧ t.regs.pixelCnt.toNat = width.toNat * height.toNat

/-- R208: the completion step of a FRAME_DONE clears ENABLE, takes and nulls the callback, clears `xfer_pending`, and emits
the callback it took, whoever holds the lock; nothing else changes and no response is sent. -/
def Obligations.CompletionTakesTheCallback : Prop :=
  ∀ (s : State) (ts : List Turn), s.schedule = .frameDone :: ts →
    let off := s.regs.control &&& ~~~0x00000001#32
    step s = .next { s with
      schedule := ts, regs := { s.regs with control := off }, pendingCb := none, xferPending := false,
      trace := s.trace ++ [.regR 0x040 s.regs.control, .regW 0x040 off] ++
        (match s.pendingCb with
          | some c => [.callback c.cb c.ctx]
          | none => []) }

/-- At most one callback per transfer: `pending_cb` goes from no value to a value only by an accepted XFER that gives it, a
FRAME_DONE leaves it with none, and a Callback event comes only from a FRAME_DONE and is the stored one
(43_transfer_engine.md R208, R210). -/
def Obligations.AtMostOneCallbackPerTransfer : Prop :=
  (∀ (s t : State) (c : Callback), step s = .next t → s.pendingCb = none → t.pendingCb = some c →
    ∃ r u w h, Serves s r (.xfer w h (some c)) u ∧ s.owner = some r ∧ s.xferPending = false)
  ∧ (∀ s t : State, step s = .next t → s.schedule.head? = some .frameDone → t.pendingCb = none)
  ∧ (∀ (s t : State) (es : List Event) (cb ctx : Word), step s = .next t → s.schedule.head? ≠ some .reset →
    t.trace = s.trace ++ es → .callback cb ctx ∈ es →
    s.schedule.head? = some .frameDone ∧ s.pendingCb = some ⟨cb, ctx⟩)

/-- ITE is never cleared: once set, it stays set through every step but a reset (70_reset_and_hazards.md R310). -/
def Obligations.IteNeverCleared : Prop :=
  ∀ s t : State, step s = .next t → s.schedule.head? ≠ some .reset →
    s.regs.control.getLsbD 4 = true → t.regs.control.getLsbD 4 = true

/-! ## Enable and disable -/

/-- ENABLE by the holder with everything loaded, the power granted, no handler registered, a format the formatter accepts and
a requirement the solver meets: the sixteen events in their order and every component it writes (44_bus_controller.md
R224). -/
def Obligations.EnableBringsUpTheChannel : Prop :=
  ∀ (n : Channel) (clk : ClockContext) (fmt : BusFormat) (req : TimingReq) (w : FormatWords) (r : Solution)
    (oks : List Bool) (s : State), s.owner = some s.issuer →
    s.clk = some clk → s.fmt.get n = some fmt → s.req.get n = some req →
    s.powerAnswers = true :: oks → s.handlerRegistered = false →
    formatWords s.params.layout fmt.depth.toNat fmt.lines.toNat = .ok w → solve req clk.periodPs 2 = some r →
    let config := setField w.config s.params.layout.granAt s.params.layout.granAt (BitVec.ofNat 32 (r.div - 1))
    let deselected := setField s.regs.control 3 2 0
    let selected := controlSelected deselected n
    exec (.enable n) s = .next { s with
      powerAnswers := oks, powerRefs := s.powerRefs + 1, handlerRegistered := true, enabled := true,
      parMode := some w.mode, solved := s.solved.set n (solvedOf r),
      regs := { s.regs with
        control := selected,
        config := s.regs.config.set n config,
        dataCycle1 := s.regs.dataCycle1.set n w.cycle1,
        dataCycle2 := s.regs.dataCycle2.set n w.cycle2,
        dataCycle3 := s.regs.dataCycle3.set n w.cycle3,
        onoffTime := s.regs.onoffTime.set n r.wordA,
        cycleTime := s.regs.cycleTime.set n r.wordB },
      trace := s.trace ++
        [.powerAcquire true, .handlerRegister,
         .regR 0x040 s.regs.control, .regW 0x040 deselected,
         .regW (0x060 + 24 * n.num) w.config, .regW (0x06c + 24 * n.num) w.cycle1,
         .regW (0x070 + 24 * n.num) w.cycle2, .regW (0x074 + 24 * n.num) w.cycle3,
         .regR 0x040 deselected, .regW 0x040 selected,
         .regW (0x064 + 24 * n.num) r.wordA, .regW (0x068 + 24 * n.num) r.wordB,
         .regR (0x060 + 24 * n.num) w.config, .regW (0x060 + 24 * n.num) config,
         .mgrSetTimings n, .resp s.issuer .ok []] }

/-- What each failing ENABLE leaves behind, row by row: power refused; handler registered; format refused; timing
unsatisfiable (44_bus_controller.md R224, R225). In no row is `enabled` set, and no power reference or registration is left.
Row four has the eight register accesses of 41_bus_formatter.md R147; R225's "ten" is read as these (log 8). -/
def Obligations.FailedEnableRollsBack : Prop :=
  ∀ (n : Channel) (clk : ClockContext) (fmt : BusFormat) (req : TimingReq) (oks : List Bool) (s : State),
    s.owner = some s.issuer → s.clk = some clk → s.fmt.get n = some fmt → s.req.get n = some req →
    (s.powerAnswers = false :: oks →
      exec (.enable n) s = .next { s with
        powerAnswers := oks,
        trace := s.trace ++ [.powerAcquire false, .resp s.issuer .powerResourceUnavailable []] })
    ∧ (s.powerAnswers = true :: oks → s.handlerRegistered = true →
      exec (.enable n) s = .next { s with
        powerAnswers := oks,
        trace := s.trace ++
          [.powerAcquire true, .powerRelease, .resp s.issuer .handlerRegistrationFailed []] })
    ∧ (∀ e, s.powerAnswers = true :: oks → s.handlerRegistered = false →
      formatWords s.params.layout fmt.depth.toNat fmt.lines.toNat = .error e →
      exec (.enable n) s = .next { s with
        powerAnswers := oks,
        trace := s.trace ++
          [.powerAcquire true, .handlerRegister, .handlerUnregister, .powerRelease, .resp s.issuer e []] })
    ∧ (∀ w, s.powerAnswers = true :: oks → s.handlerRegistered = false →
      formatWords s.params.layout fmt.depth.toNat fmt.lines.toNat = .ok w → solve req clk.periodPs 2 = none →
      let deselected := setField s.regs.control 3 2 0
      let selected := controlSelected deselected n
      ∃ timing draws, SolvedTiming.converted timing = false ∧ exec (.enable n) s = .next { s with
        powerAnswers := oks,
        regs := { s.regs with
          control := selected,
          config := s.regs.config.set n w.config,
          dataCycle1 := s.regs.dataCycle1.set n w.cycle1,
          dataCycle2 := s.regs.dataCycle2.set n w.cycle2,
          dataCycle3 := s.regs.dataCycle3.set n w.cycle3 },
        parMode := some w.mode, solved := s.solved.set n timing, draws := draws,
        trace := s.trace ++
          [.powerAcquire true, .handlerRegister,
           .regR 0x040 s.regs.control, .regW 0x040 deselected,
           .regW (0x060 + 24 * n.num) w.config, .regW (0x06c + 24 * n.num) w.cycle1,
           .regW (0x070 + 24 * n.num) w.cycle2, .regW (0x074 + 24 * n.num) w.cycle3,
           .regR 0x040 deselected, .regW 0x040 selected,
           .handlerUnregister, .powerRelease, .resp s.issuer .timingUnsatisfiable []] })

/-- ENABLE by the holder with everything loaded completes on ANY power answer, named or free, and never touches the lock, the
waiters, the loaded parameters, the transfer, `fault`, PIXEL_CNT, or the other channel's solved timing and six registers
(44_bus_controller.md R224, 10_state.md R45). -/
def Obligations.EnableCompletesOnAnyAnswer : Prop :=
  ∀ (n m : Channel) (s : State), s.owner = some s.issuer →
    s.clk.isSome = true → (s.fmt.get n).isSome = true → (s.req.get n).isSome = true →
    ∃ t, exec (.enable n) s = .next t
      ∧ t.owner = s.owner ∧ t.waiting = s.waiting ∧ t.clk = s.clk ∧ t.req = s.req ∧ t.fmt = s.fmt
      ∧ t.teActive = s.teActive ∧ t.xferPending = s.xferPending ∧ t.pendingCb = s.pendingCb ∧ t.fault = s.fault
      ∧ t.regs.pixelCnt = s.regs.pixelCnt ∧ t.readAnswers = s.readAnswers
      ∧ (m ≠ n → t.solved.get m = s.solved.get m ∧ t.regs.config.get m = s.regs.config.get m
          ∧ t.regs.onoffTime.get m = s.regs.onoffTime.get m ∧ t.regs.cycleTime.get m = s.regs.cycleTime.get m
          ∧ t.regs.dataCycle1.get m = s.regs.dataCycle1.get m ∧ t.regs.dataCycle2.get m = s.regs.dataCycle2.get m
          ∧ t.regs.dataCycle3.get m = s.regs.dataCycle3.get m)

/-- R228: DISABLE by the holder disables the manager, unregisters the handler if registered, releases the power if held,
clears `enabled` and answers OK; no register, transfer or callback changes, and the lock stays held. -/
def Obligations.DisableTearsDown : Prop :=
  ∀ s : State, s.owner = some s.issuer →
    exec .disable s = .next { s with
      enabled := false, handlerRegistered := false, powerRefs := s.powerRefs - 1,
      trace := s.trace ++ [.mgrDisable] ++ (if s.handlerRegistered then [.handlerUnregister] else [])
        ++ (if s.powerRefs = 0 then [] else [.powerRelease]) ++ [.resp s.issuer .ok []] }

/-! ## The register file -/

/-- R62: the channel offsets are the base offset plus 24 n, and every register's offset is a multiple of 4 below 0x090. -/
def Obligations.ChannelOffsets : Prop :=
  (∀ n : Channel, Reg.offset (.config n) = 0x060 + 24 * n.num ∧ Reg.offset (.onoffTime n) = 0x064 + 24 * n.num
    ∧ Reg.offset (.cycleTime n) = 0x068 + 24 * n.num ∧ Reg.offset (.dataCycle1 n) = 0x06c + 24 * n.num
    ∧ Reg.offset (.dataCycle2 n) = 0x070 + 24 * n.num ∧ Reg.offset (.dataCycle3 n) = 0x074 + 24 * n.num)
  ∧ ∀ r : Reg, r.offset % 4 = 0 ∧ r.offset < 0x090

/-- R64: an offset the table does not list is refused by both primitives. -/
def Obligations.UnlistedOffsetsRefused : Prop :=
  ∀ (off : Nat) (v : Word) (s : State),
    (off % 4 ≠ 0 ∨ (0x004 ≤ off ∧ off ≤ 0x03c) ∨ off = 0x048 ∨ off = 0x05c ∨ 0x090 ≤ off) →
    regReadAt off s = .error (.unlistedOffset off) ∧ regWriteAt off v s = .error (.unlistedOffset off)

/-- A register access by offset: a storage register reads as the last word written to it whatever was written elsewhere
since, REVISION and the four ports store nothing, REVISION reads as `REV`, and every access leaves its one event
(20_memory.md R66, R67). -/
def Obligations.RegistersReadTheLastWrite : Prop :=
  ∀ (off off' : Nat) (v v' : Word) (s t t' : State), regWriteAt off v s = .ok t → off' ≠ off →
    regWriteAt off' v' t = .ok t' →
    t'.trace = s.trace ++ [.regW off v, .regW off' v']
    ∧ (off ∈ [0x000, 0x04c, 0x050, 0x054, 0x058] → t.regs = s.regs)
    ∧ (off ∉ [0x000, 0x04c, 0x050, 0x054, 0x058] →
        regReadAt off t' = .ok (v, { t' with trace := t'.trace ++ [.regR off v] }))
    ∧ (off = 0x000 → regReadAt off t' = .ok (s.params.rev, { t' with trace := t'.trace ++ [.regR 0 s.params.rev] }))

/-- No step accesses REVISION, PARAM, or an offset the map does not list (20_memory.md R63, R64, 43_transfer_engine.md R197). -/
def Obligations.NoAccessOutsideTheTable : Prop :=
  ∀ (s t : State) (es : List Event) (off : Nat) (v : Word), step s = .next t → s.schedule.head? ≠ some .reset →
    t.trace = s.trace ++ es → (.regW off v ∈ es ∨ .regR off v ∈ es) →
    ∃ r, Reg.ofOffset off = some r ∧ r ≠ .revision ∧ r ≠ .param

/-! ## Invariants -/

/-- The invariant holds at reset. -/
def Obligations.InvariantAtReset : Prop := Invariant State.reset

/-- Every step keeps the invariant: `waiting` stays a set of requesters of the instance and `owner` one of them, a stored
callback belongs to a pending transfer, `handler_registered` and `power_refs` mirror `enabled`, the period stays positive,
CONTROL keeps its reserved bits zero and never selects channel code 3, and a converted timing stays the solution of what is
loaded (10_state.md R51, 44_bus_controller.md R229). -/
def Obligations.EveryStepKeepsTheInvariant : Prop :=
  ∀ s t : State, Invariant s → step s = .next t → Invariant t

/-- With the invariant, a converted timing's words satisfy the width and ordering relations, the divider is 1 or 2 and the
granularity bit is the divider less one (10_state.md R51 a, R25). -/
def Obligations.ConvertedTimingIsOrdered : Prop :=
  ∀ (s : State) (n : Channel), Invariant s → s.converted n = true →
    OrderedWords (s.solved.get n).wordA (s.solved.get n).wordB
    ∧ UnusedZero (s.solved.get n).wordA (s.solved.get n).wordB
    ∧ ((s.solved.get n).div = 1 ∨ (s.solved.get n).div = 2)
    ∧ (s.solved.get n).gran = BitVec.ofNat 1 ((s.solved.get n).div - 1)
end

