-- ==== Sys2Proof/Laws/State.lean ====
section
/-! SUPPORT. One lemma per field per named update of the state, each true by rfl, so that no later proof unfolds an update. -/

namespace Sys2Proof.Machine

@[simp] theorem PerChannel.get_set_same {α : Type} (p : PerChannel α) (n : Channel) (a : α) : (p.set n a).get n = a := by
  cases n <;> rfl

theorem PerChannel.get_set_other {α : Type} (p : PerChannel α) {n m : Channel} (h : m ≠ n) (a : α) :
    (p.set n a).get m = p.get m := by
  cases n <;> cases m <;> first | rfl | exact absurd rfl h

@[simp] theorem PerChannel.set_get {α : Type} (p : PerChannel α) (n : Channel) : p.set n (p.get n) = p := by
  cases n <;> rfl

@[simp] theorem PerChannel.set_set {α : Type} (p : PerChannel α) (n : Channel) (a b : α) : (p.set n a).set n b = p.set n b := by
  cases n <;> rfl

@[simp] theorem unsolvedTiming_converted (d a b g k : Nat) : (unsolvedTiming d a b g k).converted = false := rfl

/-! ### emit -/

@[simp] theorem emit_clk (e : Event) (s : State) : (emit e s).clk = s.clk := rfl
@[simp] theorem emit_req (e : Event) (s : State) : (emit e s).req = s.req := rfl
@[simp] theorem emit_fmt (e : Event) (s : State) : (emit e s).fmt = s.fmt := rfl
@[simp] theorem emit_teActive (e : Event) (s : State) : (emit e s).teActive = s.teActive := rfl
@[simp] theorem emit_solved (e : Event) (s : State) : (emit e s).solved = s.solved := rfl
@[simp] theorem emit_parMode (e : Event) (s : State) : (emit e s).parMode = s.parMode := rfl
@[simp] theorem emit_owner (e : Event) (s : State) : (emit e s).owner = s.owner := rfl
@[simp] theorem emit_enabled (e : Event) (s : State) : (emit e s).enabled = s.enabled := rfl
@[simp] theorem emit_handlerRegistered (e : Event) (s : State) : (emit e s).handlerRegistered = s.handlerRegistered := rfl
@[simp] theorem emit_powerRefs (e : Event) (s : State) : (emit e s).powerRefs = s.powerRefs := rfl
@[simp] theorem emit_xferPending (e : Event) (s : State) : (emit e s).xferPending = s.xferPending := rfl
@[simp] theorem emit_pendingCb (e : Event) (s : State) : (emit e s).pendingCb = s.pendingCb := rfl
@[simp] theorem emit_fault (e : Event) (s : State) : (emit e s).fault = s.fault := rfl
@[simp] theorem emit_waiting (e : Event) (s : State) : (emit e s).waiting = s.waiting := rfl
@[simp] theorem emit_regs (e : Event) (s : State) : (emit e s).regs = s.regs := rfl
@[simp] theorem emit_trace (e : Event) (s : State) : (emit e s).trace = s.trace ++ [e] := rfl
@[simp] theorem emit_params (e : Event) (s : State) : (emit e s).params = s.params := rfl
@[simp] theorem emit_issuer (e : Event) (s : State) : (emit e s).issuer = s.issuer := rfl
@[simp] theorem emit_ports (e : Event) (s : State) : (emit e s).ports = s.ports := rfl
@[simp] theorem emit_schedule (e : Event) (s : State) : (emit e s).schedule = s.schedule := rfl
@[simp] theorem emit_powerAnswers (e : Event) (s : State) : (emit e s).powerAnswers = s.powerAnswers := rfl
@[simp] theorem emit_readAnswers (e : Event) (s : State) : (emit e s).readAnswers = s.readAnswers := rfl
@[simp] theorem emit_draws (e : Event) (s : State) : (emit e s).draws = s.draws := rfl

/-! ### respond -/

@[simp] theorem respond_clk (st : Status) (bs : List Byte) (s : State) : (respond st bs s).clk = s.clk := rfl
@[simp] theorem respond_req (st : Status) (bs : List Byte) (s : State) : (respond st bs s).req = s.req := rfl
@[simp] theorem respond_fmt (st : Status) (bs : List Byte) (s : State) : (respond st bs s).fmt = s.fmt := rfl
@[simp] theorem respond_teActive (st : Status) (bs : List Byte) (s : State) : (respond st bs s).teActive = s.teActive := rfl
@[simp] theorem respond_solved (st : Status) (bs : List Byte) (s : State) : (respond st bs s).solved = s.solved := rfl
@[simp] theorem respond_parMode (st : Status) (bs : List Byte) (s : State) : (respond st bs s).parMode = s.parMode := rfl
@[simp] theorem respond_owner (st : Status) (bs : List Byte) (s : State) : (respond st bs s).owner = s.owner := rfl
@[simp] theorem respond_enabled (st : Status) (bs : List Byte) (s : State) : (respond st bs s).enabled = s.enabled := rfl
@[simp] theorem respond_handlerRegistered (st : Status) (bs : List Byte) (s : State) : (respond st bs s).handlerRegistered = s.handlerRegistered := rfl
@[simp] theorem respond_powerRefs (st : Status) (bs : List Byte) (s : State) : (respond st bs s).powerRefs = s.powerRefs := rfl
@[simp] theorem respond_xferPending (st : Status) (bs : List Byte) (s : State) : (respond st bs s).xferPending = s.xferPending := rfl
@[simp] theorem respond_pendingCb (st : Status) (bs : List Byte) (s : State) : (respond st bs s).pendingCb = s.pendingCb := rfl
@[simp] theorem respond_fault (st : Status) (bs : List Byte) (s : State) : (respond st bs s).fault = s.fault := rfl
@[simp] theorem respond_waiting (st : Status) (bs : List Byte) (s : State) : (respond st bs s).waiting = s.waiting := rfl
@[simp] theorem respond_regs (st : Status) (bs : List Byte) (s : State) : (respond st bs s).regs = s.regs := rfl
@[simp] theorem respond_trace (st : Status) (bs : List Byte) (s : State) : (respond st bs s).trace = s.trace ++ [.resp s.issuer st bs] := rfl
@[simp] theorem respond_params (st : Status) (bs : List Byte) (s : State) : (respond st bs s).params = s.params := rfl
@[simp] theorem respond_issuer (st : Status) (bs : List Byte) (s : State) : (respond st bs s).issuer = s.issuer := rfl
@[simp] theorem respond_ports (st : Status) (bs : List Byte) (s : State) : (respond st bs s).ports = s.ports := rfl
@[simp] theorem respond_schedule (st : Status) (bs : List Byte) (s : State) : (respond st bs s).schedule = s.schedule := rfl
@[simp] theorem respond_powerAnswers (st : Status) (bs : List Byte) (s : State) : (respond st bs s).powerAnswers = s.powerAnswers := rfl
@[simp] theorem respond_readAnswers (st : Status) (bs : List Byte) (s : State) : (respond st bs s).readAnswers = s.readAnswers := rfl
@[simp] theorem respond_draws (st : Status) (bs : List Byte) (s : State) : (respond st bs s).draws = s.draws := rfl

/-! ### clearConverted -/

@[simp] theorem clearConverted_clk (n : Channel) (s : State) : (clearConverted n s).clk = s.clk := rfl
@[simp] theorem clearConverted_req (n : Channel) (s : State) : (clearConverted n s).req = s.req := rfl
@[simp] theorem clearConverted_fmt (n : Channel) (s : State) : (clearConverted n s).fmt = s.fmt := rfl
@[simp] theorem clearConverted_teActive (n : Channel) (s : State) : (clearConverted n s).teActive = s.teActive := rfl
@[simp] theorem clearConverted_solved (n : Channel) (s : State) : (clearConverted n s).solved = s.solved.set n (unsolvedTiming s.draws (s.draws + 1) (s.draws + 2) (s.draws + 3) (s.draws + 4)) := rfl
@[simp] theorem clearConverted_parMode (n : Channel) (s : State) : (clearConverted n s).parMode = s.parMode := rfl
@[simp] theorem clearConverted_owner (n : Channel) (s : State) : (clearConverted n s).owner = s.owner := rfl
@[simp] theorem clearConverted_enabled (n : Channel) (s : State) : (clearConverted n s).enabled = s.enabled := rfl
@[simp] theorem clearConverted_handlerRegistered (n : Channel) (s : State) : (clearConverted n s).handlerRegistered = s.handlerRegistered := rfl
@[simp] theorem clearConverted_powerRefs (n : Channel) (s : State) : (clearConverted n s).powerRefs = s.powerRefs := rfl
@[simp] theorem clearConverted_xferPending (n : Channel) (s : State) : (clearConverted n s).xferPending = s.xferPending := rfl
@[simp] theorem clearConverted_pendingCb (n : Channel) (s : State) : (clearConverted n s).pendingCb = s.pendingCb := rfl
@[simp] theorem clearConverted_fault (n : Channel) (s : State) : (clearConverted n s).fault = s.fault := rfl
@[simp] theorem clearConverted_waiting (n : Channel) (s : State) : (clearConverted n s).waiting = s.waiting := rfl
@[simp] theorem clearConverted_regs (n : Channel) (s : State) : (clearConverted n s).regs = s.regs := rfl
@[simp] theorem clearConverted_trace (n : Channel) (s : State) : (clearConverted n s).trace = s.trace := rfl
@[simp] theorem clearConverted_params (n : Channel) (s : State) : (clearConverted n s).params = s.params := rfl
@[simp] theorem clearConverted_issuer (n : Channel) (s : State) : (clearConverted n s).issuer = s.issuer := rfl
@[simp] theorem clearConverted_ports (n : Channel) (s : State) : (clearConverted n s).ports = s.ports := rfl
@[simp] theorem clearConverted_schedule (n : Channel) (s : State) : (clearConverted n s).schedule = s.schedule := rfl
@[simp] theorem clearConverted_powerAnswers (n : Channel) (s : State) : (clearConverted n s).powerAnswers = s.powerAnswers := rfl
@[simp] theorem clearConverted_readAnswers (n : Channel) (s : State) : (clearConverted n s).readAnswers = s.readAnswers := rfl
@[simp] theorem clearConverted_draws (n : Channel) (s : State) : (clearConverted n s).draws = s.draws + 14 := rfl

/-! ### setXferPending -/

@[simp] theorem setXferPending_clk (b : Bool) (s : State) : (setXferPending b s).clk = s.clk := rfl
@[simp] theorem setXferPending_req (b : Bool) (s : State) : (setXferPending b s).req = s.req := rfl
@[simp] theorem setXferPending_fmt (b : Bool) (s : State) : (setXferPending b s).fmt = s.fmt := rfl
@[simp] theorem setXferPending_teActive (b : Bool) (s : State) : (setXferPending b s).teActive = s.teActive := rfl
@[simp] theorem setXferPending_solved (b : Bool) (s : State) : (setXferPending b s).solved = s.solved := rfl
@[simp] theorem setXferPending_parMode (b : Bool) (s : State) : (setXferPending b s).parMode = s.parMode := rfl
@[simp] theorem setXferPending_owner (b : Bool) (s : State) : (setXferPending b s).owner = s.owner := rfl
@[simp] theorem setXferPending_enabled (b : Bool) (s : State) : (setXferPending b s).enabled = s.enabled := rfl
@[simp] theorem setXferPending_handlerRegistered (b : Bool) (s : State) : (setXferPending b s).handlerRegistered = s.handlerRegistered := rfl
@[simp] theorem setXferPending_powerRefs (b : Bool) (s : State) : (setXferPending b s).powerRefs = s.powerRefs := rfl
@[simp] theorem setXferPending_xferPending (b : Bool) (s : State) : (setXferPending b s).xferPending = b := rfl
@[simp] theorem setXferPending_pendingCb (b : Bool) (s : State) : (setXferPending b s).pendingCb = s.pendingCb := rfl
@[simp] theorem setXferPending_fault (b : Bool) (s : State) : (setXferPending b s).fault = s.fault := rfl
@[simp] theorem setXferPending_waiting (b : Bool) (s : State) : (setXferPending b s).waiting = s.waiting := rfl
@[simp] theorem setXferPending_regs (b : Bool) (s : State) : (setXferPending b s).regs = s.regs := rfl
@[simp] theorem setXferPending_trace (b : Bool) (s : State) : (setXferPending b s).trace = s.trace := rfl
@[simp] theorem setXferPending_params (b : Bool) (s : State) : (setXferPending b s).params = s.params := rfl
@[simp] theorem setXferPending_issuer (b : Bool) (s : State) : (setXferPending b s).issuer = s.issuer := rfl
@[simp] theorem setXferPending_ports (b : Bool) (s : State) : (setXferPending b s).ports = s.ports := rfl
@[simp] theorem setXferPending_schedule (b : Bool) (s : State) : (setXferPending b s).schedule = s.schedule := rfl
@[simp] theorem setXferPending_powerAnswers (b : Bool) (s : State) : (setXferPending b s).powerAnswers = s.powerAnswers := rfl
@[simp] theorem setXferPending_readAnswers (b : Bool) (s : State) : (setXferPending b s).readAnswers = s.readAnswers := rfl
@[simp] theorem setXferPending_draws (b : Bool) (s : State) : (setXferPending b s).draws = s.draws := rfl

/-! ### setHandlerRegistered -/

@[simp] theorem setHandlerRegistered_clk (b : Bool) (s : State) : (setHandlerRegistered b s).clk = s.clk := rfl
@[simp] theorem setHandlerRegistered_req (b : Bool) (s : State) : (setHandlerRegistered b s).req = s.req := rfl
@[simp] theorem setHandlerRegistered_fmt (b : Bool) (s : State) : (setHandlerRegistered b s).fmt = s.fmt := rfl
@[simp] theorem setHandlerRegistered_teActive (b : Bool) (s : State) : (setHandlerRegistered b s).teActive = s.teActive := rfl
@[simp] theorem setHandlerRegistered_solved (b : Bool) (s : State) : (setHandlerRegistered b s).solved = s.solved := rfl
@[simp] theorem setHandlerRegistered_parMode (b : Bool) (s : State) : (setHandlerRegistered b s).parMode = s.parMode := rfl
@[simp] theorem setHandlerRegistered_owner (b : Bool) (s : State) : (setHandlerRegistered b s).owner = s.owner := rfl
@[simp] theorem setHandlerRegistered_enabled (b : Bool) (s : State) : (setHandlerRegistered b s).enabled = s.enabled := rfl
@[simp] theorem setHandlerRegistered_handlerRegistered (b : Bool) (s : State) : (setHandlerRegistered b s).handlerRegistered = b := rfl
@[simp] theorem setHandlerRegistered_powerRefs (b : Bool) (s : State) : (setHandlerRegistered b s).powerRefs = s.powerRefs := rfl
@[simp] theorem setHandlerRegistered_xferPending (b : Bool) (s : State) : (setHandlerRegistered b s).xferPending = s.xferPending := rfl
@[simp] theorem setHandlerRegistered_pendingCb (b : Bool) (s : State) : (setHandlerRegistered b s).pendingCb = s.pendingCb := rfl
@[simp] theorem setHandlerRegistered_fault (b : Bool) (s : State) : (setHandlerRegistered b s).fault = s.fault := rfl
@[simp] theorem setHandlerRegistered_waiting (b : Bool) (s : State) : (setHandlerRegistered b s).waiting = s.waiting := rfl
@[simp] theorem setHandlerRegistered_regs (b : Bool) (s : State) : (setHandlerRegistered b s).regs = s.regs := rfl
@[simp] theorem setHandlerRegistered_trace (b : Bool) (s : State) : (setHandlerRegistered b s).trace = s.trace := rfl
@[simp] theorem setHandlerRegistered_params (b : Bool) (s : State) : (setHandlerRegistered b s).params = s.params := rfl
@[simp] theorem setHandlerRegistered_issuer (b : Bool) (s : State) : (setHandlerRegistered b s).issuer = s.issuer := rfl
@[simp] theorem setHandlerRegistered_ports (b : Bool) (s : State) : (setHandlerRegistered b s).ports = s.ports := rfl
@[simp] theorem setHandlerRegistered_schedule (b : Bool) (s : State) : (setHandlerRegistered b s).schedule = s.schedule := rfl
@[simp] theorem setHandlerRegistered_powerAnswers (b : Bool) (s : State) : (setHandlerRegistered b s).powerAnswers = s.powerAnswers := rfl
@[simp] theorem setHandlerRegistered_readAnswers (b : Bool) (s : State) : (setHandlerRegistered b s).readAnswers = s.readAnswers := rfl
@[simp] theorem setHandlerRegistered_draws (b : Bool) (s : State) : (setHandlerRegistered b s).draws = s.draws := rfl

/-! ### setEnabled -/

@[simp] theorem setEnabled_clk (b : Bool) (s : State) : (setEnabled b s).clk = s.clk := rfl
@[simp] theorem setEnabled_req (b : Bool) (s : State) : (setEnabled b s).req = s.req := rfl
@[simp] theorem setEnabled_fmt (b : Bool) (s : State) : (setEnabled b s).fmt = s.fmt := rfl
@[simp] theorem setEnabled_teActive (b : Bool) (s : State) : (setEnabled b s).teActive = s.teActive := rfl
@[simp] theorem setEnabled_solved (b : Bool) (s : State) : (setEnabled b s).solved = s.solved := rfl
@[simp] theorem setEnabled_parMode (b : Bool) (s : State) : (setEnabled b s).parMode = s.parMode := rfl
@[simp] theorem setEnabled_owner (b : Bool) (s : State) : (setEnabled b s).owner = s.owner := rfl
@[simp] theorem setEnabled_enabled (b : Bool) (s : State) : (setEnabled b s).enabled = b := rfl
@[simp] theorem setEnabled_handlerRegistered (b : Bool) (s : State) : (setEnabled b s).handlerRegistered = s.handlerRegistered := rfl
@[simp] theorem setEnabled_powerRefs (b : Bool) (s : State) : (setEnabled b s).powerRefs = s.powerRefs := rfl
@[simp] theorem setEnabled_xferPending (b : Bool) (s : State) : (setEnabled b s).xferPending = s.xferPending := rfl
@[simp] theorem setEnabled_pendingCb (b : Bool) (s : State) : (setEnabled b s).pendingCb = s.pendingCb := rfl
@[simp] theorem setEnabled_fault (b : Bool) (s : State) : (setEnabled b s).fault = s.fault := rfl
@[simp] theorem setEnabled_waiting (b : Bool) (s : State) : (setEnabled b s).waiting = s.waiting := rfl
@[simp] theorem setEnabled_regs (b : Bool) (s : State) : (setEnabled b s).regs = s.regs := rfl
@[simp] theorem setEnabled_trace (b : Bool) (s : State) : (setEnabled b s).trace = s.trace := rfl
@[simp] theorem setEnabled_params (b : Bool) (s : State) : (setEnabled b s).params = s.params := rfl
@[simp] theorem setEnabled_issuer (b : Bool) (s : State) : (setEnabled b s).issuer = s.issuer := rfl
@[simp] theorem setEnabled_ports (b : Bool) (s : State) : (setEnabled b s).ports = s.ports := rfl
@[simp] theorem setEnabled_schedule (b : Bool) (s : State) : (setEnabled b s).schedule = s.schedule := rfl
@[simp] theorem setEnabled_powerAnswers (b : Bool) (s : State) : (setEnabled b s).powerAnswers = s.powerAnswers := rfl
@[simp] theorem setEnabled_readAnswers (b : Bool) (s : State) : (setEnabled b s).readAnswers = s.readAnswers := rfl
@[simp] theorem setEnabled_draws (b : Bool) (s : State) : (setEnabled b s).draws = s.draws := rfl

/-! ### setFault -/

@[simp] theorem setFault_clk (s : State) : (setFault s).clk = s.clk := rfl
@[simp] theorem setFault_req (s : State) : (setFault s).req = s.req := rfl
@[simp] theorem setFault_fmt (s : State) : (setFault s).fmt = s.fmt := rfl
@[simp] theorem setFault_teActive (s : State) : (setFault s).teActive = s.teActive := rfl
@[simp] theorem setFault_solved (s : State) : (setFault s).solved = s.solved := rfl
@[simp] theorem setFault_parMode (s : State) : (setFault s).parMode = s.parMode := rfl
@[simp] theorem setFault_owner (s : State) : (setFault s).owner = s.owner := rfl
@[simp] theorem setFault_enabled (s : State) : (setFault s).enabled = s.enabled := rfl
@[simp] theorem setFault_handlerRegistered (s : State) : (setFault s).handlerRegistered = s.handlerRegistered := rfl
@[simp] theorem setFault_powerRefs (s : State) : (setFault s).powerRefs = s.powerRefs := rfl
@[simp] theorem setFault_xferPending (s : State) : (setFault s).xferPending = s.xferPending := rfl
@[simp] theorem setFault_pendingCb (s : State) : (setFault s).pendingCb = s.pendingCb := rfl
@[simp] theorem setFault_fault (s : State) : (setFault s).fault = true := rfl
@[simp] theorem setFault_waiting (s : State) : (setFault s).waiting = s.waiting := rfl
@[simp] theorem setFault_regs (s : State) : (setFault s).regs = s.regs := rfl
@[simp] theorem setFault_trace (s : State) : (setFault s).trace = s.trace := rfl
@[simp] theorem setFault_params (s : State) : (setFault s).params = s.params := rfl
@[simp] theorem setFault_issuer (s : State) : (setFault s).issuer = s.issuer := rfl
@[simp] theorem setFault_ports (s : State) : (setFault s).ports = s.ports := rfl
@[simp] theorem setFault_schedule (s : State) : (setFault s).schedule = s.schedule := rfl
@[simp] theorem setFault_powerAnswers (s : State) : (setFault s).powerAnswers = s.powerAnswers := rfl
@[simp] theorem setFault_readAnswers (s : State) : (setFault s).readAnswers = s.readAnswers := rfl
@[simp] theorem setFault_draws (s : State) : (setFault s).draws = s.draws := rfl

/-! ### setTeActive -/

@[simp] theorem setTeActive_clk (b : Bool) (s : State) : (setTeActive b s).clk = s.clk := rfl
@[simp] theorem setTeActive_req (b : Bool) (s : State) : (setTeActive b s).req = s.req := rfl
@[simp] theorem setTeActive_fmt (b : Bool) (s : State) : (setTeActive b s).fmt = s.fmt := rfl
@[simp] theorem setTeActive_teActive (b : Bool) (s : State) : (setTeActive b s).teActive = b := rfl
@[simp] theorem setTeActive_solved (b : Bool) (s : State) : (setTeActive b s).solved = s.solved := rfl
@[simp] theorem setTeActive_parMode (b : Bool) (s : State) : (setTeActive b s).parMode = s.parMode := rfl
@[simp] theorem setTeActive_owner (b : Bool) (s : State) : (setTeActive b s).owner = s.owner := rfl
@[simp] theorem setTeActive_enabled (b : Bool) (s : State) : (setTeActive b s).enabled = s.enabled := rfl
@[simp] theorem setTeActive_handlerRegistered (b : Bool) (s : State) : (setTeActive b s).handlerRegistered = s.handlerRegistered := rfl
@[simp] theorem setTeActive_powerRefs (b : Bool) (s : State) : (setTeActive b s).powerRefs = s.powerRefs := rfl
@[simp] theorem setTeActive_xferPending (b : Bool) (s : State) : (setTeActive b s).xferPending = s.xferPending := rfl
@[simp] theorem setTeActive_pendingCb (b : Bool) (s : State) : (setTeActive b s).pendingCb = s.pendingCb := rfl
@[simp] theorem setTeActive_fault (b : Bool) (s : State) : (setTeActive b s).fault = s.fault := rfl
@[simp] theorem setTeActive_waiting (b : Bool) (s : State) : (setTeActive b s).waiting = s.waiting := rfl
@[simp] theorem setTeActive_regs (b : Bool) (s : State) : (setTeActive b s).regs = s.regs := rfl
@[simp] theorem setTeActive_trace (b : Bool) (s : State) : (setTeActive b s).trace = s.trace := rfl
@[simp] theorem setTeActive_params (b : Bool) (s : State) : (setTeActive b s).params = s.params := rfl
@[simp] theorem setTeActive_issuer (b : Bool) (s : State) : (setTeActive b s).issuer = s.issuer := rfl
@[simp] theorem setTeActive_ports (b : Bool) (s : State) : (setTeActive b s).ports = s.ports := rfl
@[simp] theorem setTeActive_schedule (b : Bool) (s : State) : (setTeActive b s).schedule = s.schedule := rfl
@[simp] theorem setTeActive_powerAnswers (b : Bool) (s : State) : (setTeActive b s).powerAnswers = s.powerAnswers := rfl
@[simp] theorem setTeActive_readAnswers (b : Bool) (s : State) : (setTeActive b s).readAnswers = s.readAnswers := rfl
@[simp] theorem setTeActive_draws (b : Bool) (s : State) : (setTeActive b s).draws = s.draws := rfl

/-! ### drawWord -/

@[simp] theorem drawWord_clk (s : State) : (drawWord s).2.clk = s.clk := rfl
@[simp] theorem drawWord_req (s : State) : (drawWord s).2.req = s.req := rfl
@[simp] theorem drawWord_fmt (s : State) : (drawWord s).2.fmt = s.fmt := rfl
@[simp] theorem drawWord_teActive (s : State) : (drawWord s).2.teActive = s.teActive := rfl
@[simp] theorem drawWord_solved (s : State) : (drawWord s).2.solved = s.solved := rfl
@[simp] theorem drawWord_parMode (s : State) : (drawWord s).2.parMode = s.parMode := rfl
@[simp] theorem drawWord_owner (s : State) : (drawWord s).2.owner = s.owner := rfl
@[simp] theorem drawWord_enabled (s : State) : (drawWord s).2.enabled = s.enabled := rfl
@[simp] theorem drawWord_handlerRegistered (s : State) : (drawWord s).2.handlerRegistered = s.handlerRegistered := rfl
@[simp] theorem drawWord_powerRefs (s : State) : (drawWord s).2.powerRefs = s.powerRefs := rfl
@[simp] theorem drawWord_xferPending (s : State) : (drawWord s).2.xferPending = s.xferPending := rfl
@[simp] theorem drawWord_pendingCb (s : State) : (drawWord s).2.pendingCb = s.pendingCb := rfl
@[simp] theorem drawWord_fault (s : State) : (drawWord s).2.fault = s.fault := rfl
@[simp] theorem drawWord_waiting (s : State) : (drawWord s).2.waiting = s.waiting := rfl
@[simp] theorem drawWord_regs (s : State) : (drawWord s).2.regs = s.regs := rfl
@[simp] theorem drawWord_trace (s : State) : (drawWord s).2.trace = s.trace := rfl
@[simp] theorem drawWord_params (s : State) : (drawWord s).2.params = s.params := rfl
@[simp] theorem drawWord_issuer (s : State) : (drawWord s).2.issuer = s.issuer := rfl
@[simp] theorem drawWord_ports (s : State) : (drawWord s).2.ports = s.ports := rfl
@[simp] theorem drawWord_schedule (s : State) : (drawWord s).2.schedule = s.schedule := rfl
@[simp] theorem drawWord_powerAnswers (s : State) : (drawWord s).2.powerAnswers = s.powerAnswers := rfl
@[simp] theorem drawWord_readAnswers (s : State) : (drawWord s).2.readAnswers = s.readAnswers := rfl
@[simp] theorem drawWord_draws (s : State) : (drawWord s).2.draws = s.draws + 1 := rfl

/-! ### drawBool -/

@[simp] theorem drawBool_clk (s : State) : (drawBool s).2.clk = s.clk := rfl
@[simp] theorem drawBool_req (s : State) : (drawBool s).2.req = s.req := rfl
@[simp] theorem drawBool_fmt (s : State) : (drawBool s).2.fmt = s.fmt := rfl
@[simp] theorem drawBool_teActive (s : State) : (drawBool s).2.teActive = s.teActive := rfl
@[simp] theorem drawBool_solved (s : State) : (drawBool s).2.solved = s.solved := rfl
@[simp] theorem drawBool_parMode (s : State) : (drawBool s).2.parMode = s.parMode := rfl
@[simp] theorem drawBool_owner (s : State) : (drawBool s).2.owner = s.owner := rfl
@[simp] theorem drawBool_enabled (s : State) : (drawBool s).2.enabled = s.enabled := rfl
@[simp] theorem drawBool_handlerRegistered (s : State) : (drawBool s).2.handlerRegistered = s.handlerRegistered := rfl
@[simp] theorem drawBool_powerRefs (s : State) : (drawBool s).2.powerRefs = s.powerRefs := rfl
@[simp] theorem drawBool_xferPending (s : State) : (drawBool s).2.xferPending = s.xferPending := rfl
@[simp] theorem drawBool_pendingCb (s : State) : (drawBool s).2.pendingCb = s.pendingCb := rfl
@[simp] theorem drawBool_fault (s : State) : (drawBool s).2.fault = s.fault := rfl
@[simp] theorem drawBool_waiting (s : State) : (drawBool s).2.waiting = s.waiting := rfl
@[simp] theorem drawBool_regs (s : State) : (drawBool s).2.regs = s.regs := rfl
@[simp] theorem drawBool_trace (s : State) : (drawBool s).2.trace = s.trace := rfl
@[simp] theorem drawBool_params (s : State) : (drawBool s).2.params = s.params := rfl
@[simp] theorem drawBool_issuer (s : State) : (drawBool s).2.issuer = s.issuer := rfl
@[simp] theorem drawBool_ports (s : State) : (drawBool s).2.ports = s.ports := rfl
@[simp] theorem drawBool_schedule (s : State) : (drawBool s).2.schedule = s.schedule := rfl
@[simp] theorem drawBool_powerAnswers (s : State) : (drawBool s).2.powerAnswers = s.powerAnswers := rfl
@[simp] theorem drawBool_readAnswers (s : State) : (drawBool s).2.readAnswers = s.readAnswers := rfl
@[simp] theorem drawBool_draws (s : State) : (drawBool s).2.draws = s.draws + 1 := rfl

/-! ### regWrite -/

@[simp] theorem regWrite_clk (r : Reg) (v : Word) (s : State) : (regWrite r v s).clk = s.clk := rfl
@[simp] theorem regWrite_req (r : Reg) (v : Word) (s : State) : (regWrite r v s).req = s.req := rfl
@[simp] theorem regWrite_fmt (r : Reg) (v : Word) (s : State) : (regWrite r v s).fmt = s.fmt := rfl
@[simp] theorem regWrite_teActive (r : Reg) (v : Word) (s : State) : (regWrite r v s).teActive = s.teActive := rfl
@[simp] theorem regWrite_solved (r : Reg) (v : Word) (s : State) : (regWrite r v s).solved = s.solved := rfl
@[simp] theorem regWrite_parMode (r : Reg) (v : Word) (s : State) : (regWrite r v s).parMode = s.parMode := rfl
@[simp] theorem regWrite_owner (r : Reg) (v : Word) (s : State) : (regWrite r v s).owner = s.owner := rfl
@[simp] theorem regWrite_enabled (r : Reg) (v : Word) (s : State) : (regWrite r v s).enabled = s.enabled := rfl
@[simp] theorem regWrite_handlerRegistered (r : Reg) (v : Word) (s : State) : (regWrite r v s).handlerRegistered = s.handlerRegistered := rfl
@[simp] theorem regWrite_powerRefs (r : Reg) (v : Word) (s : State) : (regWrite r v s).powerRefs = s.powerRefs := rfl
@[simp] theorem regWrite_xferPending (r : Reg) (v : Word) (s : State) : (regWrite r v s).xferPending = s.xferPending := rfl
@[simp] theorem regWrite_pendingCb (r : Reg) (v : Word) (s : State) : (regWrite r v s).pendingCb = s.pendingCb := rfl
@[simp] theorem regWrite_fault (r : Reg) (v : Word) (s : State) : (regWrite r v s).fault = s.fault := rfl
@[simp] theorem regWrite_waiting (r : Reg) (v : Word) (s : State) : (regWrite r v s).waiting = s.waiting := rfl
@[simp] theorem regWrite_regs (r : Reg) (v : Word) (s : State) : (regWrite r v s).regs = s.regs.store r v := rfl
@[simp] theorem regWrite_trace (r : Reg) (v : Word) (s : State) : (regWrite r v s).trace = s.trace ++ [.regW r.offset v] := rfl
@[simp] theorem regWrite_params (r : Reg) (v : Word) (s : State) : (regWrite r v s).params = s.params := rfl
@[simp] theorem regWrite_issuer (r : Reg) (v : Word) (s : State) : (regWrite r v s).issuer = s.issuer := rfl
@[simp] theorem regWrite_ports (r : Reg) (v : Word) (s : State) : (regWrite r v s).ports = s.ports := rfl
@[simp] theorem regWrite_schedule (r : Reg) (v : Word) (s : State) : (regWrite r v s).schedule = s.schedule := rfl
@[simp] theorem regWrite_powerAnswers (r : Reg) (v : Word) (s : State) : (regWrite r v s).powerAnswers = s.powerAnswers := rfl
@[simp] theorem regWrite_readAnswers (r : Reg) (v : Word) (s : State) : (regWrite r v s).readAnswers = s.readAnswers := rfl
@[simp] theorem regWrite_draws (r : Reg) (v : Word) (s : State) : (regWrite r v s).draws = s.draws := rfl

/-! ### releasePower -/

@[simp] theorem releasePower_clk (s : State) : (releasePower s).clk = s.clk := rfl
@[simp] theorem releasePower_req (s : State) : (releasePower s).req = s.req := rfl
@[simp] theorem releasePower_fmt (s : State) : (releasePower s).fmt = s.fmt := rfl
@[simp] theorem releasePower_teActive (s : State) : (releasePower s).teActive = s.teActive := rfl
@[simp] theorem releasePower_solved (s : State) : (releasePower s).solved = s.solved := rfl
@[simp] theorem releasePower_parMode (s : State) : (releasePower s).parMode = s.parMode := rfl
@[simp] theorem releasePower_owner (s : State) : (releasePower s).owner = s.owner := rfl
@[simp] theorem releasePower_enabled (s : State) : (releasePower s).enabled = s.enabled := rfl
@[simp] theorem releasePower_handlerRegistered (s : State) : (releasePower s).handlerRegistered = s.handlerRegistered := rfl
@[simp] theorem releasePower_powerRefs (s : State) : (releasePower s).powerRefs = s.powerRefs - 1 := rfl
@[simp] theorem releasePower_xferPending (s : State) : (releasePower s).xferPending = s.xferPending := rfl
@[simp] theorem releasePower_pendingCb (s : State) : (releasePower s).pendingCb = s.pendingCb := rfl
@[simp] theorem releasePower_fault (s : State) : (releasePower s).fault = s.fault := rfl
@[simp] theorem releasePower_waiting (s : State) : (releasePower s).waiting = s.waiting := rfl
@[simp] theorem releasePower_regs (s : State) : (releasePower s).regs = s.regs := rfl
@[simp] theorem releasePower_trace (s : State) : (releasePower s).trace = s.trace ++ [.powerRelease] := rfl
@[simp] theorem releasePower_params (s : State) : (releasePower s).params = s.params := rfl
@[simp] theorem releasePower_issuer (s : State) : (releasePower s).issuer = s.issuer := rfl
@[simp] theorem releasePower_ports (s : State) : (releasePower s).ports = s.ports := rfl
@[simp] theorem releasePower_schedule (s : State) : (releasePower s).schedule = s.schedule := rfl
@[simp] theorem releasePower_powerAnswers (s : State) : (releasePower s).powerAnswers = s.powerAnswers := rfl
@[simp] theorem releasePower_readAnswers (s : State) : (releasePower s).readAnswers = s.readAnswers := rfl
@[simp] theorem releasePower_draws (s : State) : (releasePower s).draws = s.draws := rfl

/-! ### registerHandler -/

@[simp] theorem registerHandler_clk (s : State) : (registerHandler s).clk = s.clk := rfl
@[simp] theorem registerHandler_req (s : State) : (registerHandler s).req = s.req := rfl
@[simp] theorem registerHandler_fmt (s : State) : (registerHandler s).fmt = s.fmt := rfl
@[simp] theorem registerHandler_teActive (s : State) : (registerHandler s).teActive = s.teActive := rfl
@[simp] theorem registerHandler_solved (s : State) : (registerHandler s).solved = s.solved := rfl
@[simp] theorem registerHandler_parMode (s : State) : (registerHandler s).parMode = s.parMode := rfl
@[simp] theorem registerHandler_owner (s : State) : (registerHandler s).owner = s.owner := rfl
@[simp] theorem registerHandler_enabled (s : State) : (registerHandler s).enabled = s.enabled := rfl
@[simp] theorem registerHandler_handlerRegistered (s : State) : (registerHandler s).handlerRegistered = true := rfl
@[simp] theorem registerHandler_powerRefs (s : State) : (registerHandler s).powerRefs = s.powerRefs := rfl
@[simp] theorem registerHandler_xferPending (s : State) : (registerHandler s).xferPending = s.xferPending := rfl
@[simp] theorem registerHandler_pendingCb (s : State) : (registerHandler s).pendingCb = s.pendingCb := rfl
@[simp] theorem registerHandler_fault (s : State) : (registerHandler s).fault = s.fault := rfl
@[simp] theorem registerHandler_waiting (s : State) : (registerHandler s).waiting = s.waiting := rfl
@[simp] theorem registerHandler_regs (s : State) : (registerHandler s).regs = s.regs := rfl
@[simp] theorem registerHandler_trace (s : State) : (registerHandler s).trace = s.trace ++ [.handlerRegister] := rfl
@[simp] theorem registerHandler_params (s : State) : (registerHandler s).params = s.params := rfl
@[simp] theorem registerHandler_issuer (s : State) : (registerHandler s).issuer = s.issuer := rfl
@[simp] theorem registerHandler_ports (s : State) : (registerHandler s).ports = s.ports := rfl
@[simp] theorem registerHandler_schedule (s : State) : (registerHandler s).schedule = s.schedule := rfl
@[simp] theorem registerHandler_powerAnswers (s : State) : (registerHandler s).powerAnswers = s.powerAnswers := rfl
@[simp] theorem registerHandler_readAnswers (s : State) : (registerHandler s).readAnswers = s.readAnswers := rfl
@[simp] theorem registerHandler_draws (s : State) : (registerHandler s).draws = s.draws := rfl

/-! ### unregisterHandler -/

@[simp] theorem unregisterHandler_clk (s : State) : (unregisterHandler s).clk = s.clk := rfl
@[simp] theorem unregisterHandler_req (s : State) : (unregisterHandler s).req = s.req := rfl
@[simp] theorem unregisterHandler_fmt (s : State) : (unregisterHandler s).fmt = s.fmt := rfl
@[simp] theorem unregisterHandler_teActive (s : State) : (unregisterHandler s).teActive = s.teActive := rfl
@[simp] theorem unregisterHandler_solved (s : State) : (unregisterHandler s).solved = s.solved := rfl
@[simp] theorem unregisterHandler_parMode (s : State) : (unregisterHandler s).parMode = s.parMode := rfl
@[simp] theorem unregisterHandler_owner (s : State) : (unregisterHandler s).owner = s.owner := rfl
@[simp] theorem unregisterHandler_enabled (s : State) : (unregisterHandler s).enabled = s.enabled := rfl
@[simp] theorem unregisterHandler_handlerRegistered (s : State) : (unregisterHandler s).handlerRegistered = false := rfl
@[simp] theorem unregisterHandler_powerRefs (s : State) : (unregisterHandler s).powerRefs = s.powerRefs := rfl
@[simp] theorem unregisterHandler_xferPending (s : State) : (unregisterHandler s).xferPending = s.xferPending := rfl
@[simp] theorem unregisterHandler_pendingCb (s : State) : (unregisterHandler s).pendingCb = s.pendingCb := rfl
@[simp] theorem unregisterHandler_fault (s : State) : (unregisterHandler s).fault = s.fault := rfl
@[simp] theorem unregisterHandler_waiting (s : State) : (unregisterHandler s).waiting = s.waiting := rfl
@[simp] theorem unregisterHandler_regs (s : State) : (unregisterHandler s).regs = s.regs := rfl
@[simp] theorem unregisterHandler_trace (s : State) : (unregisterHandler s).trace = s.trace ++ [.handlerUnregister] := rfl
@[simp] theorem unregisterHandler_params (s : State) : (unregisterHandler s).params = s.params := rfl
@[simp] theorem unregisterHandler_issuer (s : State) : (unregisterHandler s).issuer = s.issuer := rfl
@[simp] theorem unregisterHandler_ports (s : State) : (unregisterHandler s).ports = s.ports := rfl
@[simp] theorem unregisterHandler_schedule (s : State) : (unregisterHandler s).schedule = s.schedule := rfl
@[simp] theorem unregisterHandler_powerAnswers (s : State) : (unregisterHandler s).powerAnswers = s.powerAnswers := rfl
@[simp] theorem unregisterHandler_readAnswers (s : State) : (unregisterHandler s).readAnswers = s.readAnswers := rfl
@[simp] theorem unregisterHandler_draws (s : State) : (unregisterHandler s).draws = s.draws := rfl

/-! ### takePacket -/

@[simp] theorem takePacket_clk (r : Nat) (ws : List Word) (s : State) : (takePacket r ws s).clk = s.clk := rfl
@[simp] theorem takePacket_req (r : Nat) (ws : List Word) (s : State) : (takePacket r ws s).req = s.req := rfl
@[simp] theorem takePacket_fmt (r : Nat) (ws : List Word) (s : State) : (takePacket r ws s).fmt = s.fmt := rfl
@[simp] theorem takePacket_teActive (r : Nat) (ws : List Word) (s : State) : (takePacket r ws s).teActive = s.teActive := rfl
@[simp] theorem takePacket_solved (r : Nat) (ws : List Word) (s : State) : (takePacket r ws s).solved = s.solved := rfl
@[simp] theorem takePacket_parMode (r : Nat) (ws : List Word) (s : State) : (takePacket r ws s).parMode = s.parMode := rfl
@[simp] theorem takePacket_owner (r : Nat) (ws : List Word) (s : State) : (takePacket r ws s).owner = s.owner := rfl
@[simp] theorem takePacket_enabled (r : Nat) (ws : List Word) (s : State) : (takePacket r ws s).enabled = s.enabled := rfl
@[simp] theorem takePacket_handlerRegistered (r : Nat) (ws : List Word) (s : State) : (takePacket r ws s).handlerRegistered = s.handlerRegistered := rfl
@[simp] theorem takePacket_powerRefs (r : Nat) (ws : List Word) (s : State) : (takePacket r ws s).powerRefs = s.powerRefs := rfl
@[simp] theorem takePacket_xferPending (r : Nat) (ws : List Word) (s : State) : (takePacket r ws s).xferPending = s.xferPending := rfl
@[simp] theorem takePacket_pendingCb (r : Nat) (ws : List Word) (s : State) : (takePacket r ws s).pendingCb = s.pendingCb := rfl
@[simp] theorem takePacket_fault (r : Nat) (ws : List Word) (s : State) : (takePacket r ws s).fault = s.fault := rfl
@[simp] theorem takePacket_waiting (r : Nat) (ws : List Word) (s : State) : (takePacket r ws s).waiting = s.waiting := rfl
@[simp] theorem takePacket_regs (r : Nat) (ws : List Word) (s : State) : (takePacket r ws s).regs = s.regs := rfl
@[simp] theorem takePacket_trace (r : Nat) (ws : List Word) (s : State) : (takePacket r ws s).trace = s.trace := rfl
@[simp] theorem takePacket_params (r : Nat) (ws : List Word) (s : State) : (takePacket r ws s).params = s.params := rfl
@[simp] theorem takePacket_issuer (r : Nat) (ws : List Word) (s : State) : (takePacket r ws s).issuer = r := rfl
@[simp] theorem takePacket_ports (r : Nat) (ws : List Word) (s : State) : (takePacket r ws s).ports = putPort s.ports r ws := rfl
@[simp] theorem takePacket_schedule (r : Nat) (ws : List Word) (s : State) : (takePacket r ws s).schedule = s.schedule := rfl
@[simp] theorem takePacket_powerAnswers (r : Nat) (ws : List Word) (s : State) : (takePacket r ws s).powerAnswers = s.powerAnswers := rfl
@[simp] theorem takePacket_readAnswers (r : Nat) (ws : List Word) (s : State) : (takePacket r ws s).readAnswers = s.readAnswers := rfl
@[simp] theorem takePacket_draws (r : Nat) (ws : List Word) (s : State) : (takePacket r ws s).draws = s.draws := rfl

end Sys2Proof.Machine
end

