-- ==== Sys2Proof/Laws/Ops.lean ====
section
/-! SUPPORT. One lemma per shared operation that says once what it does; later proofs cite these instead of unfolding. -/

namespace Sys2Proof.Machine

/-! ## The lock check and the stream check -/

theorem withLock_holder {body : State → Result} {s : State} (h : s.issuerHolds) : withLock body s = body s := if_pos h

theorem withLock_other {body : State → Result} {s : State} (h : ¬ s.issuerHolds) :
    withLock body s = .next (setFault s) := if_neg h

/-- All the lock check can do: run the body for the holder, set the sticky bit for anyone else. -/
theorem withLock_next {body : State → Result} {s t : State} (h : withLock body s = .next t) :
    (s.issuerHolds ∧ body s = .next t) ∨ (¬ s.issuerHolds ∧ t = setFault s) := by
  by_cases hold : s.issuerHolds
  · exact .inl ⟨hold, by rwa [withLock_holder hold] at h⟩
  · rw [withLock_other hold] at h
    exact .inr ⟨hold, by cases h; rfl⟩

theorem finish_next {status : Status} {s t : State} (h : finish status s = .next t) : t = respond status [] s := by
  cases h; rfl

/-- All a stream can do before its body: the lock check, then the mode and length checks. -/
theorem withStream_next {len : Nat} {body : UnitSize → State → Result} {s t : State}
    (h : withStream len body s = .next t) :
    (¬ s.issuerHolds ∧ t = setFault s)
      ∨ (s.issuerHolds ∧ ∃ e, streamCheck s.parMode len = .stop e ∧ t = respond e [] s)
      ∨ (s.issuerHolds ∧ ∃ u, streamCheck s.parMode len = .go u ∧ body u s = .next t) := by
  rcases withLock_next h with ⟨hold, hb⟩ | ⟨hold, rfl⟩
  · cases hc : streamCheck s.parMode len with
    | stop e => rw [hc] at hb; exact .inr (.inl ⟨hold, e, rfl, finish_next hb⟩)
    | noMode => rw [hc] at hb; cases hb
    | go u => rw [hc] at hb; exact .inr (.inr ⟨hold, u, rfl, hb⟩)
  · exact .inl ⟨hold, rfl⟩

/-! ## The register primitives -/

/-- The registers that store what is written to them (20_memory.md R67). -/
def Reg.stores : Reg → Bool
  | .revision => false
  | .control => true
  | .pixelCnt => true
  | .cmd => false
  | .param => false
  | .data => false
  | .read => false
  | .config _ => true
  | .onoffTime _ => true
  | .cycleTime _ => true
  | .dataCycle1 _ => true
  | .dataCycle2 _ => true
  | .dataCycle3 _ => true

theorem ofOffset_offset (r : Reg) : Reg.ofOffset r.offset = some r := by
  cases r with
  | config n => cases n <;> rfl
  | onoffTime n => cases n <;> rfl
  | cycleTime n => cases n <;> rfl
  | dataCycle1 n => cases n <;> rfl
  | dataCycle2 n => cases n <;> rfl
  | dataCycle3 n => cases n <;> rfl
  | _ => rfl

theorem offset_injective {a b : Reg} (h : a.offset = b.offset) : a = b := by
  have := ofOffset_offset a
  rw [h, ofOffset_offset b] at this
  exact (Option.some.inj this).symm

theorem regReadAt_offset (r : Reg) (s : State) : regReadAt r.offset s = .ok (regRead r s) := by
  simp [regReadAt, ofOffset_offset]

theorem regWriteAt_offset (r : Reg) (v : Word) (s : State) : regWriteAt r.offset v s = .ok (regWrite r v s) := by
  simp [regWriteAt, ofOffset_offset]

theorem store_of_not_stores {r : Reg} (h : r.stores = false) (f : RegFile) (v : Word) : f.store r v = f := by
  cases r <;> first | rfl | exact Bool.noConfusion h

/-- A read of a storage register draws nothing and asks nobody. -/
theorem regValue_state {r : Reg} (h : r.stores = true) (s : State) : (regValue r s).2 = s := by
  cases r <;> first | rfl | exact Bool.noConfusion h

/-- The value of a storage register depends on the register file alone. -/
theorem regValue_congr {r : Reg} (h : r.stores = true) {s t : State} (hr : s.regs = t.regs) :
    (regValue r s).1 = (regValue r t).1 := by
  cases r <;> first | exact Bool.noConfusion h | simp [regValue, hr]

/-- Read after write. -/
theorem regValue_regWrite_same {r : Reg} (h : r.stores = true) (v : Word) (s : State) :
    (regValue r (regWrite r v s)).1 = v := by
  cases r <;> first | exact Bool.noConfusion h | simp [regValue, RegFile.store]

/-- A write leaves every other storage register alone. -/
theorem regValue_regWrite_other {r q : Reg} (h : q.stores = true) (hne : q ≠ r) (v : Word) (s : State) :
    (regValue q (regWrite r v s)).1 = (regValue q s).1 := by
  cases r <;> cases q <;>
    first
      | exact Bool.noConfusion h
      | exact absurd rfl hne
      | rfl
      | (rename_i m n
         have hmn : n ≠ m := fun e => hne (by rw [e])
         simp [regValue, RegFile.store, PerChannel.get_set_other _ hmn])

theorem regRead_storage {r : Reg} (h : r.stores = true) (s : State) :
    regRead r s = ((regValue r s).1, emit (.regR r.offset (regValue r s).1) s) := by
  rw [regRead, regValue_state h]

/-- RegMod of a storage register: one read event, one write event, one field replaced. -/
theorem regMod_storage {r : Reg} (h : r.stores = true) (hi lo : Nat) (f : Word) (s : State) :
    regMod r hi lo f s =
      { s with
        regs := s.regs.store r (setField (regValue r s).1 hi lo f),
        trace := s.trace ++ [.regR r.offset (regValue r s).1, .regW r.offset (setField (regValue r s).1 hi lo f)] } := by
  simp [regMod, regRead_storage h, regWrite, emit]

/-! ## The completion step -/

/-- The completion step, whole (43_transfer_engine.md R208). -/
theorem completionStep_eq (s : State) :
    completionStep s =
      { s with
        regs := { s.regs with control := setField s.regs.control 0 0 0 },
        pendingCb := none, xferPending := false,
        trace := s.trace
          ++ [.regR 0x040 s.regs.control, .regW 0x040 (setField s.regs.control 0 0 0)]
          ++ (s.pendingCb.map (fun c => Event.callback c.cb c.ctx)).toList } := by
  rw [completionStep, regMod_storage rfl]
  cases h : s.pendingCb <;> simp [emitCallback, setXferPending, emit, regValue, RegFile.store, Reg.offset]

/-! ## The formatter and the solver -/

/-- What a CONFIGURE that passes its checks leaves, whole (41_bus_formatter.md R147). -/
theorem writeFormat_eq (n : Channel) (w : FormatWords) (s : State) :
    writeFormat n w s =
      { s with
        regs := { s.regs with
          control := controlSelected (setField s.regs.control 3 2 0) n,
          config := s.regs.config.set n w.config,
          dataCycle1 := s.regs.dataCycle1.set n w.cycle1,
          dataCycle2 := s.regs.dataCycle2.set n w.cycle2,
          dataCycle3 := s.regs.dataCycle3.set n w.cycle3 },
        parMode := some w.mode,
        trace := s.trace ++
          [.regR 0x040 s.regs.control, .regW 0x040 (setField s.regs.control 3 2 0),
           .regW (channelOffset 0x060 n) w.config, .regW (channelOffset 0x06c n) w.cycle1,
           .regW (channelOffset 0x070 n) w.cycle2, .regW (channelOffset 0x074 n) w.cycle3,
           .regR 0x040 (setField s.regs.control 3 2 0),
           .regW 0x040 (controlSelected (setField s.regs.control 3 2 0) n)] } := by
  rw [writeFormat, regMod_storage rfl]
  simp [regRead, regValue, regWrite, emit, RegFile.store, Reg.offset]

/-- What a SOLVE that succeeds writes, whole (42_timing_solver.md R175). -/
theorem writeTiming_eq (n : Channel) (t : SolvedTiming) (s : State) :
    writeTiming n t s =
      { s with
        regs := { s.regs with
          onoffTime := s.regs.onoffTime.set n t.wordA,
          cycleTime := s.regs.cycleTime.set n t.wordB,
          config := s.regs.config.set n
            (setField (s.regs.config.get n) s.params.layout.granAt s.params.layout.granAt (t.gran.zeroExtend 32)) },
        trace := s.trace ++
          [.regW (channelOffset 0x064 n) t.wordA, .regW (channelOffset 0x068 n) t.wordB,
           .regR (channelOffset 0x060 n) (s.regs.config.get n),
           .regW (channelOffset 0x060 n)
             (setField (s.regs.config.get n) s.params.layout.granAt s.params.layout.granAt (t.gran.zeroExtend 32))] } := by
  rw [writeTiming, regMod_storage rfl]
  simp [regValue, regWrite, emit, RegFile.store, Reg.offset]

theorem configureBody_cases (n : Channel) (depth lines : Byte) (s : State) :
    (∃ e, formatWords s.params.layout depth.toNat lines.toNat = .error e ∧ configureBody n depth lines s = .failed e s)
      ∨ (∃ w, formatWords s.params.layout depth.toNat lines.toNat = .ok w
          ∧ configureBody n depth lines s = .done (writeFormat n w s)) := by
  unfold configureBody
  cases h : formatWords s.params.layout depth.toNat lines.toNat with
  | error e => exact .inl ⟨e, rfl, rfl⟩
  | ok w => exact .inr ⟨w, rfl, rfl⟩

theorem solveBody_cases (n : Channel) (req : TimingReq) (clk : ClockContext) (s : State) :
    (solve req clk.periodPs Config.maxDiv = none
        ∧ solveBody n req clk s = .failed .timingUnsatisfiable (clearConverted n s))
      ∨ (∃ r, solve req clk.periodPs Config.maxDiv = some r
          ∧ solveBody n req clk s = .done (writeTiming n (solvedOf r) { s with solved := s.solved.set n (solvedOf r) })) := by
  unfold solveBody
  cases h : solve req clk.periodPs Config.maxDiv with
  | none => exact .inl ⟨rfl, rfl⟩
  | some r => exact .inr ⟨r, rfl, rfl⟩

/-- A turn of the divider loop that succeeds: every adjusted count fits and the words are packed from them. -/
theorem attempt_some {ps : Ten Nat} {p d : Nat} {r : Solution} (h : attempt ps p d = some r) :
    fits (adjustedAt ps p d) = true ∧ r.div = d ∧ r.wordA = packA (adjustedAt ps p d)
      ∧ r.wordB = packB (adjustedAt ps p d) ∧ r.rounded = roundedAt ps p d := by
  unfold attempt at h
  split at h
  · next hf => cases h; exact ⟨hf, rfl, rfl, rfl, rfl⟩
  · cases h

/-- A solution comes from one divider the loop tried. -/
theorem solveFrom_some {ps : Ten Nat} {p : Nat} {r : Solution} :
    ∀ {left d : Nat}, solveFrom ps p left d = some r → d ≤ r.div ∧ r.div < d + left ∧ attempt ps p r.div = some r
  | 0, _, h => by cases h
  | left + 1, d, h => by
    unfold solveFrom at h
    split at h
    · next r' hr =>
      cases h
      have hd := (attempt_some hr).2.1
      exact ⟨by omega, by omega, by rw [hd]; exact hr⟩
    · have ih := solveFrom_some h
      exact ⟨by omega, by omega, ih.2.2⟩

/-! ## Streams -/

/-- Writing units to a port: one write event per unit, in order, and nothing else. -/
theorem writeUnits_port {r : Reg} (h : r.stores = false) :
    ∀ (ws : List Word) (s : State),
      writeUnits r ws s = { s with trace := s.trace ++ ws.map (fun w => Event.regW r.offset w) }
  | [], s => by simp [writeUnits]
  | w :: ws, s => by simp [writeUnits, writeUnits_port h ws, regWrite, emit, store_of_not_stores h]

/-- Reading units while the environment's answers last: the bytes are those of the answers, each unit costs one write and
one read, and the answers are used up. -/
theorem readUnits_answers (u : UnitSize) :
    ∀ (vs rest : List Word) (s : State), s.readAnswers = vs ++ rest →
      readUnits u vs.length s =
        (vs.flatMap (unitBytes u),
          { s with
            readAnswers := rest, trace := s.trace ++ vs.flatMap (fun v => [Event.regW 0x058 0, Event.regR 0x058 v]) })
  | [], rest, s, h => by simp [readUnits, ← (show s.readAnswers = rest from h)]
  | v :: vs, rest, s, h => by
    have h1 : readUnit s = (v, { s with
        readAnswers := vs ++ rest, trace := s.trace ++ [Event.regW 0x058 0, Event.regR 0x058 v] }) := by
      simp [readUnit, regRead, regValue, envRead, regWrite, emit, RegFile.store, Reg.offset, h]
    have ih := readUnits_answers u vs rest { s with
      readAnswers := vs ++ rest, trace := s.trace ++ [Event.regW 0x058 0, Event.regR 0x058 v] } rfl
    simp only [List.length_cons, readUnits, h1]
    rw [ih]
    simp

/-- Reading units changes only the trace and what the environment supplies, whatever that is. -/
theorem readUnits_frame (u : UnitSize) :
    ∀ (k : Nat) (s : State), ∃ (es : List Event) (vs : List Word) (d : Nat),
      (readUnits u k s).2 = { s with trace := s.trace ++ es, readAnswers := vs, draws := d }
  | 0, s => ⟨[], s.readAnswers, s.draws, by simp [readUnits]⟩
  | k + 1, s => by
    have h1 : ∃ (es : List Event) (vs : List Word) (d : Nat),
        (readUnit s).2 = { s with trace := s.trace ++ es, readAnswers := vs, draws := d } := by
      cases h : s.readAnswers with
      | nil =>
        exact ⟨[.regW 0x058 0, .regR 0x058 (Config.freeWord s.draws)], s.readAnswers, s.draws + 1,
          by simp [readUnit, regRead, regValue, envRead, drawWord, regWrite, emit, RegFile.store, Reg.offset, h]⟩
      | cons v vs =>
        exact ⟨[.regW 0x058 0, .regR 0x058 v], vs, s.draws,
          by simp [readUnit, regRead, regValue, envRead, regWrite, emit, RegFile.store, Reg.offset, h]⟩
    obtain ⟨es, vs, d, h1⟩ := h1
    obtain ⟨es', vs', d', h2⟩ := readUnits_frame u k (readUnit s).2
    exact ⟨es ++ es', vs', d', by simp only [readUnits, h2]; rw [h1]; simp⟩

/-- The bytes of `k` units read. -/
theorem readUnits_length (u : UnitSize) :
    ∀ (k : Nat) (s : State), (readUnits u k s).1.length = k * (match u with | .byte => 1 | .half => 2)
  | 0, _ => by simp [readUnits]
  | k + 1, s => by
    have ih := readUnits_length u k (readUnit s).2
    cases u with
    | byte => simp [readUnits, unitBytes, ih]
    | half => simp [readUnits, unitBytes, ih]; omega

/-- What an accepted XFER writes, whole (43_transfer_engine.md R204). -/
theorem writeTransfer_eq (width height : Half) (s : State) :
    writeTransfer width height s =
      { s with
        regs := { s.regs with
          pixelCnt := BitVec.ofNat 32 (width.toNat * height.toNat),
          control := controlStarted s.regs.control s.teActive },
        trace := s.trace ++
          [.regW 0x044 (BitVec.ofNat 32 (width.toNat * height.toNat)), .regR 0x040 s.regs.control,
           .regW 0x040 (controlStarted s.regs.control s.teActive)] } := by
  simp [writeTransfer, regRead, regValue, regWrite, emit, RegFile.store, Reg.offset]

/-! ## The arbiter -/

theorem mem_insertWaiter {r w : Nat} : ∀ {ws : List Nat}, w ∈ insertWaiter r ws ↔ w = r ∨ w ∈ ws
  | [] => by simp [insertWaiter]
  | v :: vs => by
    unfold insertWaiter
    split
    · simp
    · split
      · next h => subst h; simp
      · have ih := @mem_insertWaiter r w vs
        simp only [List.mem_cons, ih]
        tauto

/-- `waiting` keeps its canonical form when a requester joins. -/
theorem insertWaiter_rising {r : Nat} : ∀ {ws : List Nat}, ws.Pairwise (· < ·) → (insertWaiter r ws).Pairwise (· < ·)
  | [], _ => by simp [insertWaiter]
  | v :: vs, h => by
    have hv := List.pairwise_cons.mp h
    unfold insertWaiter
    split
    · next hr =>
      refine List.pairwise_cons.mpr ⟨fun x hx => ?_, h⟩
      rcases List.mem_cons.mp hx with rfl | hx
      · exact hr
      · exact lt_trans hr (hv.1 x hx)
    · split
      · exact h
      · refine List.pairwise_cons.mpr ⟨fun x hx => ?_, insertWaiter_rising hv.2⟩
        rcases mem_insertWaiter.mp hx with rfl | hx
        · omega
        · exact hv.1 x hx

theorem mem_removeWaiter {r w : Nat} {ws : List Nat} : w ∈ removeWaiter r ws ↔ w ∈ ws ∧ w ≠ r := by
  simp [removeWaiter]

/-- `waiting` keeps its canonical form when a requester leaves. -/
theorem removeWaiter_rising {r : Nat} {ws : List Nat} (h : ws.Pairwise (· < ·)) : (removeWaiter r ws).Pairwise (· < ·) :=
  h.filter _

/-- All the grant step can do (44_bus_controller.md R221). -/
theorem grantStep_next {w : Nat} {s t : State} (h : grantStep w s = .next t) :
    s.owner = none ∧ w ∈ s.waiting
      ∧ t = { s with waiting := removeWaiter w s.waiting, owner := some w, trace := s.trace ++ [.resp w .ok []] } := by
  unfold grantStep at h
  split at h
  · cases h
  · next ho =>
    split at h
    · next hw => cases h; exact ⟨ho, hw, rfl⟩
    · cases h

/-- DISABLE's teardown, whole (R228). -/
theorem teardown_eq (s : State) :
    teardown s =
      { s with
        enabled := false, handlerRegistered := false, powerRefs := s.powerRefs - 1,
        trace := s.trace ++ [.mgrDisable] ++ (if s.handlerRegistered then [.handlerUnregister] else [])
          ++ (if s.powerRefs > 0 then [.powerRelease] else []) } := by
  rcases s with ⟨⟩
  rename_i hr pr _ _ _ _ _ _ _ _ _ _ _ _ _
  cases hr <;> cases pr <;>
    simp [teardown, emit, unregisterHandler, releasePower, setHandlerRegistered, setEnabled]

/-! ## Enable -/

/-- An answer of the power collaborator changes only what the environment supplies. -/
theorem envPower_frame (s : State) : ∃ ok oks d, envPower s = (ok, { s with powerAnswers := oks, draws := d }) := by
  unfold envPower drawBool
  split
  · exact ⟨_, _, s.draws, rfl⟩
  · exact ⟨_, s.powerAnswers, _, rfl⟩

/-- All ENABLE can do once its parameters are loaded (R224, R225): fail before the formatter has written, fail in the solver
with the format written, or succeed. -/
theorem enableBody_cases (n : Channel) (fmt : BusFormat) (req : TimingReq) (clk : ClockContext) (s : State) :
    ∃ oks d es,
      enableBody n fmt req clk s = .next { s with powerAnswers := oks, draws := d, trace := s.trace ++ es }
      ∨ ∃ w, formatWords s.params.layout fmt.depth.toNat fmt.lines.toNat = .ok w ∧ s.handlerRegistered = false
        ∧ let u := { writeFormat n w { s with powerAnswers := oks } with draws := d, trace := s.trace ++ es }
          ((∃ timing, SolvedTiming.converted timing = false
              ∧ enableBody n fmt req clk s = .next { u with solved := s.solved.set n timing })
            ∨ ∃ r, solve req clk.periodPs Config.maxDiv = some r
              ∧ enableBody n fmt req clk s = .next { u with
                  solved := s.solved.set n (solvedOf r), enabled := true, handlerRegistered := true,
                  powerRefs := s.powerRefs + 1,
                  regs := (writeTiming n (solvedOf r) u).regs }) := by
  obtain ⟨ok, oks, d, hp⟩ := envPower_frame s
  cases ok with
  | false =>
    refine ⟨oks, d, [.powerAcquire false, .resp s.issuer .powerResourceUnavailable []], .inl ?_⟩
    simp [enableBody, acquirePower, hp, finish, respond, emit]
  | true =>
    cases hh : s.handlerRegistered with
    | true =>
      refine ⟨oks, d, [.powerAcquire true, .powerRelease, .resp s.issuer .handlerRegistrationFailed []], .inl ?_⟩
      simp [enableBody, acquirePower, hp, hh, finish, respond, emit, releasePower]
    | false =>
      cases hw : formatWords s.params.layout fmt.depth.toNat fmt.lines.toNat with
      | error e =>
        refine ⟨oks, d, [.powerAcquire true, .handlerRegister, .handlerUnregister, .powerRelease, .resp s.issuer e []],
          .inl ?_⟩
        simp [enableBody, acquirePower, hp, hh, finish, respond, emit, releasePower, enableChannel, registerHandler,
          setHandlerRegistered, configureBody, hw, rollback, unregisterHandler]
      | ok w =>
        cases hs : solve req clk.periodPs Config.maxDiv with
        | none =>
          refine ⟨oks, d + 14, [.powerAcquire true, .handlerRegister, .regR 0x040 s.regs.control,
            .regW 0x040 (setField s.regs.control 3 2 0), .regW (channelOffset 0x060 n) w.config,
            .regW (channelOffset 0x06c n) w.cycle1, .regW (channelOffset 0x070 n) w.cycle2,
            .regW (channelOffset 0x074 n) w.cycle3, .regR 0x040 (setField s.regs.control 3 2 0),
            .regW 0x040 (controlSelected (setField s.regs.control 3 2 0) n),
            .handlerUnregister, .powerRelease, .resp s.issuer .timingUnsatisfiable []], .inr ⟨w, rfl, rfl, .inl ⟨unsolvedTiming d (d + 1) (d + 2) (d + 3) (d + 4), rfl, ?_⟩⟩⟩
          simp [enableBody, acquirePower, hp, hh, finish, respond, emit, releasePower, enableChannel, registerHandler,
            setHandlerRegistered, configureBody, hw, rollback, unregisterHandler, writeFormat_eq, solveBody, hs,
            clearConverted]
        | some r =>
          refine ⟨oks, d, [.powerAcquire true, .handlerRegister, .regR 0x040 s.regs.control,
            .regW 0x040 (setField s.regs.control 3 2 0), .regW (channelOffset 0x060 n) w.config,
            .regW (channelOffset 0x06c n) w.cycle1, .regW (channelOffset 0x070 n) w.cycle2,
            .regW (channelOffset 0x074 n) w.cycle3, .regR 0x040 (setField s.regs.control 3 2 0),
            .regW 0x040 (controlSelected (setField s.regs.control 3 2 0) n), .regW (channelOffset 0x064 n) r.wordA, .regW (channelOffset 0x068 n) r.wordB,
            .regR (channelOffset 0x060 n) w.config,
            .regW (channelOffset 0x060 n)
              (setField w.config s.params.layout.granAt s.params.layout.granAt ((BitVec.ofNat 1 (r.div - 1)).zeroExtend 32)),
            .mgrSetTimings n, .resp s.issuer .ok []], .inr ⟨w, rfl, rfl, .inr ⟨r, rfl, ?_⟩⟩⟩
          simp [enableBody, acquirePower, hp, hh, finish, respond, emit, enableChannel, registerHandler,
            setHandlerRegistered, configureBody, hw, writeFormat_eq, writeTiming_eq, solveBody, hs, setEnabled]
          exact ⟨rfl, rfl, rfl⟩

/-! ## The operations and CONTROL -/

/-- What an operation that answers a next state does to CONTROL: nothing, the formatter's two writes, or XFER's one. -/
theorem exec_control {i : Instr} {s t : State} (h : exec i s = .next t) :
    t.regs.control = s.regs.control
      ∨ (s.issuerHolds ∧ ((∃ n depth lines, i = .configure n depth lines ∧
              t.regs.control = controlSelected (setField s.regs.control 3 2 0) n)
            ∨ (∃ n, i = .enable n ∧ t.regs.control = controlSelected (setField s.regs.control 3 2 0) n)
            ∨ ∃ width height callback, i = .xfer width height callback
                ∧ t.regs.control = controlStarted s.regs.control s.teActive)) := by
  cases i <;> simp only [exec] at h
  case lock =>
    unfold execLock at h
    split at h
    · cases finish_next h; exact .inl rfl
    · cases h; exact .inl rfl
  case unlock =>
    unfold execUnlock at h
    split at h <;> cases finish_next h <;> exact .inl rfl
  case enable n =>
    rcases withLock_next h with ⟨ho, hb⟩ | ⟨-, rfl⟩
    · split at hb
      · next clk fmt req hc hf hr =>
        obtain ⟨oks, d, es, he | ⟨w, -, -, ⟨timing, -, he⟩ | ⟨r, -, he⟩⟩⟩ := enableBody_cases n fmt req clk s <;>
          rw [he] at hb <;> cases hb
        · exact .inl rfl
        · exact .inr ⟨ho, .inr (.inl ⟨n, rfl, by simp [writeFormat_eq]⟩)⟩
        · exact .inr ⟨ho, .inr (.inl ⟨n, rfl, by simp [writeTiming_eq, writeFormat_eq]⟩)⟩
      · cases hb
    · exact .inl rfl
  case disable =>
    rcases withLock_next h with ⟨-, hb⟩ | ⟨-, rfl⟩
    · cases finish_next hb; exact .inl (by simp [teardown_eq])
    · exact .inl rfl
  case setclk =>
    unfold execSetclk at h
    split at h
    · cases finish_next h; exact .inl rfl
    · cases h
  case setreq => cases finish_next h; exact .inl rfl
  case setfmt => cases finish_next h; exact .inl rfl
  case sette => cases finish_next h; exact .inl rfl
  case configure n depth lines =>
    rcases withLock_next h with ⟨ho, hb⟩ | ⟨-, rfl⟩
    · rcases configureBody_cases n depth lines s with ⟨e, -, hc⟩ | ⟨w, -, hc⟩ <;> rw [hc] at hb <;> cases finish_next hb
      · exact .inl rfl
      · exact .inr ⟨ho, .inl ⟨n, depth, lines, rfl, by simp [writeFormat_eq]⟩⟩
    · exact .inl rfl
  case solve n =>
    rcases withLock_next h with ⟨-, hb⟩ | ⟨-, rfl⟩
    · split at hb
      · next clk req hc hr =>
        rcases solveBody_cases n req clk s with ⟨-, he⟩ | ⟨r, -, he⟩ <;> rw [he] at hb <;> cases finish_next hb
        · exact .inl rfl
        · exact .inl (by simp [writeTiming_eq])
      · cases hb
    · exact .inl rfl
  case wrcmd bytes =>
    rcases withStream_next h with ⟨-, rfl⟩ | ⟨-, e, -, rfl⟩ | ⟨-, u, -, hb⟩
    · exact .inl rfl
    · exact .inl rfl
    · cases finish_next hb; exact .inl (by rw [writeUnits_port rfl]; rfl)
  case wrdata bytes =>
    rcases withStream_next h with ⟨-, rfl⟩ | ⟨-, e, -, rfl⟩ | ⟨-, u, -, hb⟩
    · exact .inl rfl
    · exact .inl rfl
    · cases finish_next hb; exact .inl (by rw [writeUnits_port rfl]; rfl)
  case rddata len =>
    rcases withStream_next h with ⟨-, rfl⟩ | ⟨-, e, -, rfl⟩ | ⟨-, u, -, hb⟩
    · exact .inl rfl
    · exact .inl rfl
    · obtain ⟨es, vs, d, he⟩ := readUnits_frame u (unitCount u len.toNat) s
      simp only [he] at hb; cases hb; exact .inl rfl
  case xfer width height callback =>
    rcases withLock_next h with ⟨ho, hb⟩ | ⟨-, rfl⟩
    · split at hb <;> cases finish_next hb
      · exact .inl rfl
      · exact .inr ⟨ho, .inr (.inr ⟨width, height, callback, rfl, by simp [writeTransfer_eq]⟩)⟩
    · exact .inl rfl

/-! ## Ports and turns -/

theorem getD_putPort_same (r : Nat) (ws : List Word) : ∀ ps : List (List Word), (putPort ps r ws).getD r [] = ws := by
  induction r with
  | zero => intro ps; cases ps <;> rfl
  | succ r ih => intro ps; cases ps <;> simpa [putPort] using ih _

theorem getD_putPort_other {r q : Nat} (h : q ≠ r) (ws : List Word) :
    ∀ ps : List (List Word), (putPort ps r ws).getD q [] = ps.getD q [] := by
  induction r generalizing q with
  | zero => intro ps; cases q with
    | zero => exact absurd rfl h
    | succ q => cases ps <;> simp [putPort]
  | succ r ih => intro ps; cases q with
    | zero => cases ps <;> simp [putPort]
    | succ q =>
      have hq : q ≠ r := fun e => h (by rw [e])
      cases ps with
      | nil => simpa [putPort] using ih hq []
      | cons p ps => simpa [putPort] using ih hq ps

/-- All a fetch that finds an operation says. -/
theorem fetch_run {r : Nat} {s t : State} {i : Instr} (h : fetch r s = .run i t) :
    r < s.params.nReq ∧ r ∉ s.waiting ∧ ∃ rest, decode (s.portWords r) = .instr i rest ∧ t = takePacket r rest s := by
  unfold fetch at h
  split at h
  · cases h
  · next hp =>
    split at h
    · cases h
    · next hw =>
      split at h
      · next j rest hd => cases h; exact ⟨by omega, hw, rest, hd, rfl⟩
      · cases h
      · cases h

theorem fetch_illegal {r : Nat} {s t : State} (h : fetch r s = .illegal t) :
    r < s.params.nReq ∧ r ∉ s.waiting ∧ ∃ why rest, decode (s.portWords r) = .illegal why rest ∧ t = takePacket r rest s := by
  unfold fetch at h
  split at h
  · cases h
  · next hp =>
    split at h
    · cases h
    · next hw =>
      split at h
      · cases h
      · next why rest hd => cases h; exact ⟨by omega, hw, why, rest, hd, rfl⟩
      · cases h

/-- All one step can do: wait, run the operation at a port, answer an illegal packet, grant, complete, or reset. -/
theorem step_next {s t : State} (h : step s = .next t) :
    (s.schedule = [] ∧ t = s)
      ∨ ∃ u ts, s.schedule = u :: ts ∧
        ((∃ r i s', u = .serve r ∧ fetch r { s with schedule := ts } = .run i s' ∧ exec i s' = .next t)
          ∨ (∃ r s', u = .serve r ∧ fetch r { s with schedule := ts } = .illegal s' ∧ t = respond .illegalCommand [] s')
          ∨ (∃ w, u = .grant w ∧ grantStep w { s with schedule := ts } = .next t)
          ∨ (u = .frameDone ∧ t = completionStep { s with schedule := ts })
          ∨ (u = .reset ∧ t = resetEvent { s with schedule := ts })) := by
  unfold step at h
  split at h
  · next hs => cases h; exact .inl ⟨hs, rfl⟩
  · next u ts hs =>
    refine .inr ⟨u, ts, hs, ?_⟩
    cases u with
    | serve r =>
      simp only [turn, serve] at h
      split at h
      · next i s' hf => exact .inl ⟨r, i, s', rfl, hf, h⟩
      · next s' hf => exact .inr (.inl ⟨r, s', rfl, hf, finish_next h⟩)
      · cases h
    | grant w => exact .inr (.inr (.inl ⟨w, rfl, h⟩))
    | frameDone =>
      simp only [turn] at h
      cases h
      exact .inr (.inr (.inr (.inl ⟨rfl, rfl⟩)))
    | reset =>
      simp only [turn] at h
      cases h
      exact .inr (.inr (.inr (.inr ⟨rfl, rfl⟩)))

end Sys2Proof.Machine
end

