-- ==== Sys2Proof/Laws/Environment.lean ====
section
/-! SUPPORT. What assumption E1 on the environment gives along a run (spec/60_exceptions.md R266). -/

namespace Sys2Proof.Machine

/-- Under E1 a FRAME_DONE comes only while an accepted XFER has not had its own. -/
theorem envOncePerTransfer_owed {owed : Nat} {s : State} (h : EnvOncePerTransfer owed s)
    (hf : s.schedule.head? = some .frameDone) : 0 < owed := by
  have h1 := h 1
  simp only [oncePerTransferFor, Bool.and_eq_true] at h1
  simpa [raisesFrameDone, hf] using h1.1

/-- E1 carries over a step, with the count of the frame-dones still owed. -/
theorem envOncePerTransfer_next {owed : Nat} {s t : State} (h : EnvOncePerTransfer owed s) (ht : step s = .next t) :
    EnvOncePerTransfer (owedAfter owed s) t := by
  intro k
  have hk := h (k + 1)
  simp only [oncePerTransferFor, Bool.and_eq_true, ht] at hk
  exact hk.2

/-- The XFER a step accepts is the packet of a served requester that holds the lock while nothing is pending (R204). -/
theorem acceptsTransfer_serves {s : State} (h : acceptsTransfer s = true) :
    ∃ r width height callback u, Serves s r (.xfer width height callback) u ∧ s.owner = some r ∧ s.xferPending = false := by
  unfold acceptsTransfer at h
  split at h
  · next r ts hs =>
    split at h
    · next i t hf =>
      obtain ⟨hr, hw, rest, hd, -⟩ := fetch_run hf
      simp only [Bool.and_eq_true, decide_eq_true_eq, Bool.not_eq_true'] at h
      obtain ⟨⟨hx, ho⟩, hp⟩ := h
      cases i <;> first | exact Bool.noConfusion hx | exact ⟨r, _, _, _, _, ⟨ts, rest, hs, hr, hw, hd, rfl⟩, ho, hp⟩
    · cases h
    · cases h
  · cases h
  · cases h
  · cases h
  · cases h

end Sys2Proof.Machine
end

