-- ==== Sys2Proof/Laws/PerInstr.lean ====
section
/-! SUPPORT. The header of every packet: the encoder's first word selects the instruction's row of the opcode table, and the
payload has the length that header announces. One lemma per constructor of Instr. -/

namespace Sys2Proof

/-! ## Header fields -/

/-- A row of the opcode table by its fields: OPC, and the parts of CH and ARG the mask fixes. -/
structure FieldRow where
  op : Op
  opc : BitVec 8
  chMask : BitVec 1
  argMask : Half

def fieldTable : List FieldRow :=
  [ ⟨.lock, 0x01, 1, 0xFFFF⟩, ⟨.unlock, 0x02, 1, 0xFFFF⟩, ⟨.enable, 0x03, 0, 0xFFFF⟩, ⟨.disable, 0x04, 1, 0xFFFF⟩,
    ⟨.setclk, 0x10, 1, 0xFFFF⟩, ⟨.setreq, 0x11, 0, 0xFFFF⟩, ⟨.setfmt, 0x12, 0, 0⟩, ⟨.sette, 0x13, 1, 0xFFFE⟩,
    ⟨.configure, 0x20, 0, 0⟩, ⟨.solve, 0x21, 0, 0xFFFF⟩, ⟨.wrcmd, 0x30, 1, 0⟩, ⟨.wrdata, 0x31, 1, 0⟩,
    ⟨.rddata, 0x32, 1, 0⟩, ⟨.xfer, 0x33, 1, 0xFFFE⟩ ]

theorem opTable_eq_fields :
    opTable = fieldTable.map (fun e => ⟨e.op, header e.opc 0 0, header 0xFF e.chMask e.argMask ||| 0x00FE0000#32⟩) := by
  decide

/-- The bits of a header, field by field (30_encoding.md R101). -/
theorem header_getLsbD (opc : BitVec 8) (ch : BitVec 1) (arg : Half) (i : Nat) :
    (header opc ch arg).getLsbD i =
      if i < 16 then arg.getLsbD i
      else if i < 17 then ch.getLsbD (i - 16)
      else if i < 24 then false
      else opc.getLsbD (i - 24) := by
  have h : (header opc ch arg).getLsbD i = (opc ++ (0#7) ++ ch ++ arg : BitVec (8 + 7 + 1 + 16)).getLsbD i := rfl
  rw [h]
  simp only [BitVec.getLsbD_append, BitVec.getLsbD_zero]
  by_cases h1 : i < 16
  · simp [h1]
  · by_cases h2 : i < 17
    · simp [h1, h2, show i - 16 < 1 by omega]
    · by_cases h3 : i < 24
      · simp [h1, h2, h3, show ¬ i - 16 < 1 by omega, show i - 16 - 1 < 7 by omega]
      · simp [h1, h2, h3, show ¬ i - 16 < 1 by omega, show ¬ i - 16 - 1 < 7 by omega,
          show i - 16 - 1 - 7 = i - 24 by omega]

theorem header_opc (opc : BitVec 8) (ch : BitVec 1) (arg : Half) : (header opc ch arg).extractLsb' 24 8 = opc := by
  apply BitVec.eq_of_getLsbD_eq
  intro i hi
  simp [header_getLsbD, hi, show ¬ 24 + i < 16 by omega, show ¬ 24 + i < 17 by omega]

theorem header_ch (opc : BitVec 8) (ch : BitVec 1) (arg : Half) : (header opc ch arg).extractLsb' 16 1 = ch := by
  apply BitVec.eq_of_getLsbD_eq
  intro i hi
  simp [header_getLsbD, hi, show 16 + i < 17 by omega]

theorem header_arg (opc : BitVec 8) (ch : BitVec 1) (arg : Half) : headerArg (header opc ch arg) = arg := by
  apply BitVec.eq_of_getLsbD_eq
  intro i hi
  simp [headerArg, header_getLsbD, hi]

theorem header_inj {opc p : BitVec 8} {ch c : BitVec 1} {arg a : Half} :
    header opc ch arg = header p c a ↔ opc = p ∧ ch = c ∧ arg = a := by
  refine ⟨fun h => ?_, fun ⟨h1, h2, h3⟩ => by rw [h1, h2, h3]⟩
  exact ⟨by rw [← header_opc opc ch arg, h, header_opc], by rw [← header_ch opc ch arg, h, header_ch],
    by rw [← header_arg opc ch arg, h, header_arg]⟩

theorem header_masked (opc : BitVec 8) (ch mc : BitVec 1) (arg ma : Half) :
    header opc ch arg &&& (header 0xFF mc ma ||| 0x00FE0000#32) = header opc (ch &&& mc) (arg &&& ma) := by
  apply BitVec.eq_of_getLsbD_eq
  intro i hi
  have hc : (0x00FE0000#32).getLsbD i = decide (17 ≤ i ∧ i < 24) := by revert i; decide
  have hf : ∀ j, j < 8 → (0xFF#8).getLsbD j = true := by decide
  simp only [BitVec.getLsbD_and, BitVec.getLsbD_or, header_getLsbD, hc]
  by_cases h1 : i < 16
  · simp [h1, show ¬ 17 ≤ i by omega]
  · by_cases h2 : i < 17
    · simp [h1, h2, show ¬ 17 ≤ i by omega]
    · by_cases h3 : i < 24
      · simp [h1, h2, h3]
      · simp [h1, h2, h3, hf (i - 24) (by omega)]

/-- The row a header selects, by its fields. -/
theorem selectOp_header (opc : BitVec 8) (ch : BitVec 1) (arg : Half) :
    selectOp (header opc ch arg) =
      (fieldTable.find? (fun e => decide (opc = e.opc ∧ ch &&& e.chMask = 0 ∧ arg &&& e.argMask = 0))).map FieldRow.op := by
  have hp : (fun row : OpRow => header opc ch arg &&& row.mask == row.pattern)
      ∘ (fun e : FieldRow => (⟨e.op, header e.opc 0 0, header 0xFF e.chMask e.argMask ||| 0x00FE0000#32⟩ : OpRow))
      = fun e => decide (opc = e.opc ∧ ch &&& e.chMask = 0 ∧ arg &&& e.argMask = 0) := by
    funext e
    simp only [Function.comp, header_masked, beq_eq_decide, header_inj]
  rw [selectOp, opTable_eq_fields, List.find?_map, Option.map_map, hp]
  rfl

/-- A stream buffer's payload length (30_encoding.md R107). -/
theorem packBytes_length : ∀ bs : List Byte, (packBytes bs).length = (bs.length + 3) / 4
  | [] => by simp [packBytes]
  | [_] => by simp [packBytes]
  | [_, _] => by simp [packBytes]
  | [_, _, _] => by simp [packBytes]
  | _ :: _ :: _ :: _ :: bs => by
    have ih := packBytes_length bs
    simp only [packBytes, List.length_cons, ih]
    omega

/-- The row of the opcode table an instruction belongs to. -/
def opOf : Instr → Op
  | .lock => .lock
  | .unlock => .unlock
  | .enable _ => .enable
  | .disable => .disable
  | .setclk _ => .setclk
  | .setreq _ _ => .setreq
  | .setfmt _ _ _ => .setfmt
  | .sette _ => .sette
  | .configure _ _ _ => .configure
  | .solve _ => .solve
  | .wrcmd _ => .wrcmd
  | .wrdata _ => .wrdata
  | .rddata _ => .rddata
  | .xfer _ _ _ => .xfer

/-! ## The family PacketHeader -/

/-- A well-formed instruction's packet begins with a header that selects its row, and has the payload it announces. -/
def Laws.PacketHeader.Statement (i : Instr) : Prop :=
  i.wf = true → ∃ h ws, encode i = h :: ws ∧ selectOp h = some (opOf i) ∧ ws.length = payloadLength (opOf i) h

theorem Laws.PacketHeader.lock : Laws.PacketHeader.Statement .lock :=
  fun _ => ⟨_, _, rfl, by simp [selectOp_header, fieldTable, opOf], rfl⟩

theorem Laws.PacketHeader.unlock : Laws.PacketHeader.Statement .unlock :=
  fun _ => ⟨_, _, rfl, by simp [selectOp_header, fieldTable, opOf], rfl⟩

theorem Laws.PacketHeader.enable (n : Channel) : Laws.PacketHeader.Statement (.enable n) :=
  fun _ => ⟨_, _, rfl, by simp [selectOp_header, fieldTable, opOf], rfl⟩

theorem Laws.PacketHeader.disable : Laws.PacketHeader.Statement .disable :=
  fun _ => ⟨_, _, rfl, by simp [selectOp_header, fieldTable, opOf], rfl⟩

theorem Laws.PacketHeader.setclk (rateKhz : Word) : Laws.PacketHeader.Statement (.setclk rateKhz) :=
  fun _ => ⟨_, _, rfl, by simp [selectOp_header, fieldTable, opOf], rfl⟩

theorem Laws.PacketHeader.setreq (n : Channel) (req : TimingReq) : Laws.PacketHeader.Statement (.setreq n req) :=
  fun _ => ⟨_, _, rfl, by simp [selectOp_header, fieldTable, opOf], rfl⟩

theorem Laws.PacketHeader.setfmt (n : Channel) (depth lines : Byte) :
    Laws.PacketHeader.Statement (.setfmt n depth lines) :=
  fun _ => ⟨_, _, rfl, by simp [selectOp_header, fieldTable, opOf], rfl⟩

theorem Laws.PacketHeader.sette (flag : Bool) : Laws.PacketHeader.Statement (.sette flag) :=
  fun _ => ⟨_, _, rfl, by cases flag <;> simp [selectOp_header, fieldTable, opOf, flagArg], rfl⟩

theorem Laws.PacketHeader.configure (n : Channel) (depth lines : Byte) :
    Laws.PacketHeader.Statement (.configure n depth lines) :=
  fun _ => ⟨_, _, rfl, by simp [selectOp_header, fieldTable, opOf], rfl⟩

theorem Laws.PacketHeader.solve (n : Channel) : Laws.PacketHeader.Statement (.solve n) :=
  fun _ => ⟨_, _, rfl, by simp [selectOp_header, fieldTable, opOf], rfl⟩

theorem Laws.PacketHeader.wrcmd (bytes : List Byte) : Laws.PacketHeader.Statement (.wrcmd bytes) := fun h => by
  have hb : bytes.length < 65536 := by simpa [Instr.wf, bufferFits] using h
  refine ⟨_, _, rfl, by simp [selectOp_header, fieldTable, opOf], ?_⟩
  simp only [opOf, payloadLength, header_arg, packBytes_length, BitVec.toNat_ofNat]
  rw [Nat.mod_eq_of_lt hb]

theorem Laws.PacketHeader.wrdata (bytes : List Byte) : Laws.PacketHeader.Statement (.wrdata bytes) := fun h => by
  have hb : bytes.length < 65536 := by simpa [Instr.wf, bufferFits] using h
  refine ⟨_, _, rfl, by simp [selectOp_header, fieldTable, opOf], ?_⟩
  simp only [opOf, payloadLength, header_arg, packBytes_length, BitVec.toNat_ofNat]
  rw [Nat.mod_eq_of_lt hb]

theorem Laws.PacketHeader.rddata (len : Half) : Laws.PacketHeader.Statement (.rddata len) :=
  fun _ => ⟨_, _, rfl, by simp [selectOp_header, fieldTable, opOf], rfl⟩

theorem Laws.PacketHeader.xfer (width height : Half) (callback : Option Callback) :
    Laws.PacketHeader.Statement (.xfer width height callback) := fun _ => by
  cases callback <;>
    exact ⟨_, _, rfl, by simp [selectOp_header, fieldTable, opOf, flagArg], rfl⟩

end Sys2Proof
end

