-- ==== Sys2Proof/Laws/Words.lean ====
section
/-! SUPPORT. The bits of packed words: concatenations, header operands, stream buffers and register fields. -/

namespace Sys2Proof

/-! ## Concatenations -/

theorem concat16_getLsbD (lo hi : Half) (j : Nat) :
    (hi ++ lo : Word).getLsbD j = if j < 16 then lo.getLsbD j else hi.getLsbD (j - 16) := by
  have h : (hi ++ lo : Word).getLsbD j = (hi ++ lo : BitVec (16 + 16)).getLsbD j := rfl
  rw [h, BitVec.getLsbD_append]

theorem concat8_getLsbD (lo hi : Byte) (j : Nat) :
    (hi ++ lo : Half).getLsbD j = if j < 8 then lo.getLsbD j else hi.getLsbD (j - 8) := by
  have h : (hi ++ lo : Half).getLsbD j = (hi ++ lo : BitVec (8 + 8)).getLsbD j := rfl
  rw [h, BitVec.getLsbD_append]

/-- Byte i of a payload word is its bits 8i+7 : 8i (30_encoding.md R104). -/
theorem packWord_getLsbD (b0 b1 b2 b3 : Byte) (j : Nat) :
    (packWord b0 b1 b2 b3).getLsbD j =
      if j < 8 then b0.getLsbD j
      else if j < 16 then b1.getLsbD (j - 8)
      else if j < 24 then b2.getLsbD (j - 16)
      else b3.getLsbD (j - 24) := by
  have h : (packWord b0 b1 b2 b3).getLsbD j = (b3 ++ b2 ++ b1 ++ b0 : BitVec (8 + 8 + 8 + 8)).getLsbD j := rfl
  rw [h]
  simp only [BitVec.getLsbD_append]
  by_cases h1 : j < 8
  · simp [h1]
  · by_cases h2 : j < 16
    · simp [h1, h2, show j - 8 < 8 by omega]
    · by_cases h3 : j < 24
      · rw [if_neg h1, if_neg h1, if_neg h2, if_pos h3, if_neg (by omega), if_pos (by omega)]
        congr 1
      · rw [if_neg h1, if_neg h1, if_neg h2, if_neg h3, if_neg (by omega), if_neg (by omega)]
        congr 1

theorem wordBytes_packWord (b0 b1 b2 b3 : Byte) : wordBytes (packWord b0 b1 b2 b3) = [b0, b1, b2, b3] := by
  have key : ∀ (k : Nat) (b : Byte),
      (∀ i, i < 8 → (packWord b0 b1 b2 b3).getLsbD (k + i) = b.getLsbD i) →
      (packWord b0 b1 b2 b3).extractLsb' k 8 = b := by
    intro k b hb
    apply BitVec.eq_of_getLsbD_eq
    intro i hi
    rw [BitVec.getLsbD_extractLsb', hb i hi]
    simp [hi]
  unfold wordBytes
  rw [key 0 b0, key 8 b1, key 16 b2, key 24 b3] <;> intro i hi <;> rw [packWord_getLsbD]
  · rw [if_neg (by omega), if_neg (by omega), if_neg (by omega), show 24 + i - 24 = i by omega]
  · rw [if_neg (by omega), if_neg (by omega), if_pos (by omega), show 16 + i - 16 = i by omega]
  · rw [if_neg (by omega), if_pos (by omega), show 8 + i - 8 = i by omega]
  · rw [if_pos (by omega), show 0 + i = i by omega]

/-! ## Header operands -/

theorem headerChannel_header (opc : BitVec 8) (n : Channel) (arg : Half) :
    headerChannel (header opc (channelBit n) arg) = n := by
  unfold headerChannel
  rw [header_getLsbD]
  cases n <;> simp [channelBit]

theorem headerFlag_header (opc : BitVec 8) (ch : BitVec 1) (b : Bool) : headerFlag (header opc ch (flagArg b)) = b := by
  unfold headerFlag
  rw [header_getLsbD]
  cases b <;> simp [flagArg]

theorem headerDepth_header (opc : BitVec 8) (ch : BitVec 1) (depth lines : Byte) :
    headerDepth (header opc ch (depth ++ lines)) = depth := by
  apply BitVec.eq_of_getLsbD_eq
  intro i hi
  rw [headerDepth, BitVec.getLsbD_extractLsb', header_getLsbD, if_pos (by omega), concat8_getLsbD, if_neg (by omega),
    show 8 + i - 8 = i by omega]
  simp [hi]

theorem headerLines_header (opc : BitVec 8) (ch : BitVec 1) (depth lines : Byte) :
    headerLines (header opc ch (depth ++ lines)) = lines := by
  apply BitVec.eq_of_getLsbD_eq
  intro i hi
  rw [headerLines, BitVec.getLsbD_extractLsb', header_getLsbD, if_pos (by omega), concat8_getLsbD, if_pos (by omega),
    show 0 + i = i by omega]
  simp [hi]

/-! ## Stream buffers -/

/-- Unpacking a packed buffer gives the buffer and zero padding (R104). -/
theorem payloadBytes_packBytes : ∀ bs : List Byte, ∃ k, payloadBytes (packBytes bs) = bs ++ List.replicate k 0
  | [] => ⟨0, rfl⟩
  | [b0] => ⟨3, by simp [packBytes, payloadBytes, wordBytes_packWord, List.replicate]⟩
  | [b0, b1] => ⟨2, by simp [packBytes, payloadBytes, wordBytes_packWord, List.replicate]⟩
  | [b0, b1, b2] => ⟨1, by simp [packBytes, payloadBytes, wordBytes_packWord, List.replicate]⟩
  | b0 :: b1 :: b2 :: b3 :: bs => by
    obtain ⟨k, hk⟩ := payloadBytes_packBytes bs
    refine ⟨k, ?_⟩
    have h : payloadBytes (packBytes (b0 :: b1 :: b2 :: b3 :: bs))
        = wordBytes (packWord b0 b1 b2 b3) ++ payloadBytes (packBytes bs) := rfl
    rw [h, hk, wordBytes_packWord]
    rfl

end Sys2Proof

namespace Sys2Proof.Machine

/-! ## Register fields (00_scope.md R16) -/

theorem fieldMask_getLsbD {hi lo : Nat} (h : lo ≤ hi) (hw : hi < 32) (i : Nat) :
    (fieldMask hi lo).getLsbD i = decide (lo ≤ i ∧ i ≤ hi) := by
  unfold fieldMask
  rw [BitVec.getLsbD_shiftLeft, BitVec.getLsbD_ofNat, Nat.testBit_two_pow_sub_one]
  by_cases h1 : i < lo
  · simp [h1, show ¬ lo ≤ i by omega]
  · by_cases h2 : i ≤ hi
    · simp [h1, h2, show lo ≤ i by omega, show i < 32 by omega, show i - lo < 32 by omega, show i - lo < hi - lo + 1 by omega]
    · simp [h2, show ¬ i - lo < hi - lo + 1 by omega]

/-- A bit of a word after RegMod's update, outside the field. -/
theorem setField_getLsbD_outside {hi lo : Nat} (h : lo ≤ hi) (hw : hi < 32) (v : Word) {f : Word}
    (hf : ∀ j, hi - lo < j → f.getLsbD j = false) {i : Nat} (hi' : i < lo ∨ hi < i) :
    (setField v hi lo f).getLsbD i = v.getLsbD i := by
  unfold setField
  have hz : (f <<< lo).getLsbD i = false := by
    rw [BitVec.getLsbD_shiftLeft]
    rcases hi' with h1 | h1
    · simp [h1]
    · simp [hf (i - lo) (by omega)]
  rw [BitVec.getLsbD_or, hz, BitVec.getLsbD_and, BitVec.getLsbD_not, fieldMask_getLsbD h hw]
  have hn : ¬ (lo ≤ i ∧ i ≤ hi) := by omega
  by_cases h32 : i < 32
  · simp [hn, h32]
  · simp [BitVec.getLsbD_of_ge v i (by omega)]

/-- A bit of a word after RegMod's update, inside the field. -/
theorem setField_getLsbD_inside {hi lo : Nat} (hw : hi < 32) (v f : Word) {i : Nat} (h1 : lo ≤ i) (h2 : i ≤ hi) :
    (setField v hi lo f).getLsbD i = f.getLsbD (i - lo) := by
  unfold setField
  rw [BitVec.getLsbD_or, BitVec.getLsbD_and, BitVec.getLsbD_not, fieldMask_getLsbD (by omega) hw, BitVec.getLsbD_shiftLeft]
  simp [h1, h2, show i < 32 by omega, show ¬ i < lo by omega]

end Sys2Proof.Machine
end

