-- ==== Sys2Proof/Machine/Written.lean ====
section
/-! DEFINITION. The written syntax of operations and of environment lines (spec/30_encoding.md R111, spec D43), as a function to text.
There are no pseudo-operations (R112): one line is one packet. -/

namespace Sys2Proof.Machine

/-- Operands separated by a comma and a space. -/
def operandList (ns : List Nat) : String := ", ".intercalate (ns.map toString)

/-- Bytes or values separated by spaces. -/
def spacedList (ns : List Nat) : String := " ".intercalate (ns.map toString)

/-- The ten operands of SETREQ in the order of spec/10_state.md R22. -/
def reqOperands (r : TimingReq) : List Nat := (encodeReqFields r).map BitVec.toNat
where
  encodeReqFields (r : TimingReq) : List Word :=
    [r.csOn, r.csOff, r.weOn, r.weOff, r.weCycle, r.reOn, r.reOff, r.reCycle, r.access, r.csPulse]

/-- The line of an operation, without its requester (R111); numbers in decimal. -/
def writtenInstr : Instr → String
  | .lock => "LOCK"
  | .unlock => "UNLOCK"
  | .enable n => "ENABLE " ++ operandList [n.num]
  | .disable => "DISABLE"
  | .setclk rate => "SETCLK " ++ operandList [rate.toNat]
  | .setreq n req => "SETREQ " ++ operandList (n.num :: reqOperands req)
  | .setfmt n depth lines => "SETFMT " ++ operandList [n.num, depth.toNat, lines.toNat]
  | .sette flag => "SETTE " ++ operandList [flag.toNat]
  | .configure n depth lines => "CONFIGURE " ++ operandList [n.num, depth.toNat, lines.toNat]
  | .solve n => "SOLVE " ++ operandList [n.num]
  | .wrcmd bytes => "WRCMD " ++ spacedList (bytes.map BitVec.toNat)
  | .wrdata bytes => "WRDATA " ++ spacedList (bytes.map BitVec.toNat)
  | .rddata len => "RDDATA " ++ operandList [len.toNat]
  | .xfer width height none => "XFER " ++ operandList [width.toNat, height.toNat]
  | .xfer width height (some c) =>
    "XFER " ++ operandList [width.toNat, height.toNat, c.cb.toNat, c.ctx.toNat]

/-- The line of an operation issued by requester `r` (R111). -/
def writtenBy (r : Nat) (i : Instr) : String := "r" ++ toString r ++ ": " ++ writtenInstr i

/-- The line of a frame-done occurrence (R111). -/
def writtenFrameDone : String := "!FRAME_DONE"

/-- The line that states the environment's answer to the next power acquire (R111). -/
def writtenPower (ok : Bool) : String := if ok then "!POWER ok" else "!POWER fail"

/-- The line that states the environment's answers to the next reads of READ (R111). -/
def writtenRead (values : List Word) : String := "!READ " ++ spacedList (values.map BitVec.toNat)

end Sys2Proof.Machine
end

