-- ==== Sys2Proof/Tests/Slice0.lean ====
section
/-! SUPPORT. Tests. Every expected word, event and status is copied from a table or an example of spec/, named in the docstring of
its group; no expected value comes from the model. -/

namespace Sys2Proof.Tests
open Sys2Proof Sys2Proof.Machine

set_option Elab.async false

/-! ## Small states -/

/-- An instance with two requesters, `REV` = 0x11 and the default layout. -/
def inst : Params := { otherPorts := 1, rev := 0x11, layout := defaultLayout }

/-- Right after reset, nothing presented. -/
def fresh : State := State.afterReset inst 0

/-- Requester 0 holds the lock and is the issuer. -/
def held : State := { fresh with owner := some 0 }

/-- As `held`, in a parallel mode. -/
def heldIn (m : ParMode) : State := { held with parMode := some m }

/-- The state whose next turn serves requester `r` with the packet `ws`, requester 0 holding the lock. -/
def presented (r : Nat) (ws : List Word) : State := { held with ports := putPort [] r ws, schedule := [.serve r] }

/-- Q2 and Q3 of spec/95_test_vectors.md 2.3, and the requirement of its T9. -/
def q2 : TimingReq := ⟨0, 700000, 10000, 100000, 700000, 10000, 100000, 700000, 50000, 10000⟩
def q3 : TimingReq := ⟨0, 0, 0, 0, 1300000, 0, 0, 0, 0, 0⟩
def t9 : TimingReq := ⟨0, 0, 9000, 18000, 0, 0, 0, 0, 0, 0⟩

/-- A requirement with `we_on` and `we_off` alone. -/
def weOnly (on off : Word) : TimingReq := ⟨0, 0, on, off, 0, 0, 0, 0, 0, 0⟩

/-- The start of the example of 44_bus_controller.md R224, with the power answer given. -/
def ready (ok : Bool) : State :=
  { held with
    clk := some ⟨20000⟩, fmt := ⟨some ⟨16, 8⟩, none⟩, req := ⟨some t9, none⟩, powerAnswers := [ok] }

/-! ## WellFormed: one ill-formed term for each check -/

theorem test_wf_refuses_long_wrcmd : Instr.wf (.wrcmd (List.replicate 65536 0)) = false := by
  simp only [Instr.wf, bufferFits, List.length_replicate]
  decide

theorem test_wf_refuses_long_wrdata : Instr.wf (.wrdata (List.replicate 65536 0)) = false := by
  simp only [Instr.wf, bufferFits, List.length_replicate]
  decide

theorem test_wf_longest : Instr.wf (.wrcmd (List.replicate 65535 0)) = true := by
  simp only [Instr.wf, bufferFits, List.length_replicate]
  decide

/-! ## Decoding: words of spec/95_test_vectors.md 2.1 to 2.7, one or more for every constructor -/

theorem test_decode_lock : decode [0x01000000] = .instr .lock [] := by decide +kernel
theorem test_decode_unlock : decode [0x02000000] = .instr .unlock [] := by decide +kernel
theorem test_decode_enable : decode [0x03010000] = .instr (.enable .ch1) [] := by decide +kernel
theorem test_decode_disable : decode [0x04000000] = .instr .disable [] := by decide +kernel
theorem test_decode_setclk : decode [0x10000000, 0x0000c350] = .instr (.setclk 50000) [] := by decide +kernel
theorem test_decode_setreq :
    decode [0x11010000, 0, 0x000aae60, 0x00002710, 0x000186a0, 0x000aae60, 0x00002710, 0x000186a0, 0x000aae60,
      0x0000c350, 0x00002710] = .instr (.setreq .ch1 q2) [] := by decide +kernel
theorem test_decode_setfmt : decode [0x12011810] = .instr (.setfmt .ch1 24 16) [] := by decide +kernel
theorem test_decode_sette : decode [0x13000001] = .instr (.sette true) [] := by decide +kernel
theorem test_decode_configure : decode [0x20000c08] = .instr (.configure .ch0 12 8) [] := by decide +kernel
theorem test_decode_solve : decode [0x21010000] = .instr (.solve .ch1) [] := by decide +kernel
theorem test_decode_wrcmd : decode [0x30000001, 0x0000002c] = .instr (.wrcmd [0x2c]) [] := by decide +kernel
theorem test_decode_wrdata :
    decode [0x31000005, 0xfcfdfeff, 0x000000fb] = .instr (.wrdata [0xff, 0xfe, 0xfd, 0xfc, 0xfb]) [] := by decide +kernel
theorem test_decode_rddata : decode [0x32000004] = .instr (.rddata 4) [] := by decide +kernel
theorem test_decode_xfer_callback :
    decode [0x33000001, 0x00f00140, 0x00001000, 0x00002000] = .instr (.xfer 320 240 (some ⟨0x1000, 0x2000⟩)) [] := by
  decide +kernel
theorem test_decode_xfer_plain : decode [0x33000000, 0x00030002, 0, 0] = .instr (.xfer 2 3 none) [] := by decide +kernel

/-- The encoder's words for the same operations. -/
theorem test_encode :
    encode (.enable .ch1) = [0x03010000] ∧ encode (.setfmt .ch1 24 16) = [0x12011810] ∧ encode (.sette true) = [0x13000001]
    ∧ encode (.configure .ch1 18 9) = [0x20011209] ∧ encode (.rddata 4) = [0x32000004]
    ∧ encode (.wrdata [0x34, 0x12, 0x78]) = [0x31000003, 0x00781234]
    ∧ encode (.xfer 4 4 (some ⟨0xaa, 0xbb⟩)) = [0x33000001, 0x00040004, 0x000000aa, 0x000000bb] := by decide +kernel

/-- The illegal packets of spec/95_test_vectors.md 2.7, and what each consumes. -/
theorem test_illegal_headers :
    ([0x00000000, 0x05000000, 0x22000000, 0xff000000, 0x01000001, 0x04010000, 0x03020000, 0x13000002] : List Word).all
      (fun h => decode [h] == .illegal .header []) = true := by decide +kernel
theorem test_illegal_header_takes_no_payload :
    decode [0x10010000, 0x0000c350] = .illegal .header [0x0000c350]
    ∧ decode [0x0000c350] = .illegal .header [] := by decide +kernel
theorem test_illegal_padding : decode [0x30000001, 0x0000012c] = .illegal .padding [] := by decide +kernel
theorem test_illegal_callback_words :
    decode [0x33000000, 0x00010001, 0x00000001, 0x00000000] = .illegal .callbackWords [] := by decide +kernel

/-- A table word, numbered as spec/opcode_table.json numbers it, and its run as the first operation after reset. -/
theorem test_table_word : decodeTableWord 64 0x0000c35010000000 = some (.setclk 50000) := by decide +kernel
theorem test_first_step : ∃ t, step (State.reset.withFetchWord 32 0x01000000) = .next t ∧ t.owner = some 0 :=
  ⟨_, rfl, rfl⟩

/-! ## Operations: spec/95_test_vectors.md 2.1 to 2.6 -/

theorem test_setclk : ∃ t, exec (.setclk 166000) held = .next t ∧ t.clk = some ⟨6024⟩ ∧ t.trace = [.resp 0 .ok []] :=
  ⟨_, rfl, by decide +kernel, rfl⟩
theorem test_setclk_zero : exec (.setclk 0) held = .refused .clockRateUnspecified := rfl
theorem test_setreq : ∃ t, exec (.setreq .ch1 q2) held = .next t ∧ t.req.ch1 = some q2 ∧ t.req.ch0 = none := ⟨_, rfl, rfl, rfl⟩
theorem test_setfmt : ∃ t, exec (.setfmt .ch0 11 4) fresh = .next t ∧ t.fmt.ch0 = some ⟨11, 4⟩ ∧ t.trace = [.resp 0 .ok []] :=
  ⟨_, rfl, rfl, rfl⟩
theorem test_sette : ∃ t, exec (.sette true) fresh = .next t ∧ t.teActive = true := ⟨_, rfl, rfl⟩

/-- 41_bus_formatter.md R147, example. -/
theorem test_configure : ∃ t, exec (.configure .ch0 24 16) held = .next t ∧ t.parMode = some .m16 ∧
    t.trace = [.regR 0x040 0, .regW 0x040 0, .regW 0x060 0x00300663, .regW 0x06c 0x00000010, .regW 0x070 0x00080008,
      .regW 0x074 0x00100000, .regR 0x040 0, .regW 0x040 0x00000004, .resp 0 .ok []] :=
  ⟨_, rfl, by decide +kernel, by decide +kernel⟩
/-- 2.2, with CONTROL = 0x15 before. -/
theorem test_configure_keeps_enable_and_ite :
    ∃ t, exec (.configure .ch1 18 9) { held with regs := { held.regs with control := 0x15 } } = .next t ∧
      t.trace = [.regR 0x040 0x15, .regW 0x040 0x11, .regW 0x078 0x00300241, .regW 0x084 9, .regW 0x088 9, .regW 0x08c 0,
        .regR 0x040 0x11, .regW 0x040 0x19, .resp 0 .ok []] := ⟨_, rfl, by decide +kernel⟩

/-- 2.3: Q2 at 10000 with one, two and three dividers; a wide operand does not wrap. -/
theorem test_solver :
    (solve q2 10000 2).map (fun r => (r.div, r.wordA, r.wordB)) = some (2, 0x05114630, 0x00c018e3)
    ∧ solve q2 10000 1 = none ∧ solve q3 10000 2 = none
    ∧ (solve q3 10000 3).map (fun r => (r.div, r.wordA, r.wordB)) = some (3, 0x01004010, 0x0040006c)
    ∧ solve ⟨0, 0, 0, 0, 0, 0, 0, 0, 4294967295, 0⟩ 1 2 = none := by decide +kernel
/-- 2.3, the operation: GRAN goes from 0 to 1 in CONFIG(1) alone. -/
theorem test_solve : ∃ t, exec (.solve .ch1)
      { held with clk := some ⟨10000⟩, req := ⟨none, some q2⟩,
                  regs := { held.regs with config := ⟨0, 0x00300460⟩ } } = .next t ∧
    t.trace = [.regW 0x07c 0x05114630, .regW 0x080 0x00c018e3, .regR 0x078 0x00300460, .regW 0x078 0x00300470,
      .resp 0 .ok []] := ⟨_, rfl, by decide +kernel⟩
theorem test_solve_fails :
    ∃ t, exec (.solve .ch1) { held with clk := some ⟨10000⟩, req := ⟨none, some q3⟩ } = .next t ∧
      t.trace = [.resp 0 .timingUnsatisfiable []] ∧ t.solved.ch1.converted = false :=
  ⟨_, rfl, by decide +kernel, by decide +kernel⟩

/-- 2.4. -/
theorem test_wrcmd : ∃ t, exec (.wrcmd [0x2c, 0x00]) (heldIn .m16) = .next t ∧
    t.trace = [.regW 0x04c 0x2c, .resp 0 .ok []] := ⟨_, rfl, by decide +kernel⟩
theorem test_wrcmd_odd : ∃ t, exec (.wrcmd [0x2c]) (heldIn .m16) = .next t ∧ t.trace = [.resp 0 .misalignedLength []] :=
  ⟨_, rfl, rfl⟩
theorem test_wrdata : ∃ t, exec (.wrdata [0x34, 0x12, 0x78, 0x56]) (heldIn .m16) = .next t ∧
    t.trace = [.regW 0x054 0x1234, .regW 0x054 0x5678, .resp 0 .ok []] := ⟨_, rfl, by decide +kernel⟩
theorem test_wrdata_mode_before_length :
    ∃ t, exec (.wrdata [1]) (heldIn .m12) = .next t ∧ t.trace = [.resp 0 .unsupportedParallelMode []] := ⟨_, rfl, rfl⟩
theorem test_rddata : ∃ t, exec (.rddata 4) { heldIn .m16 with readAnswers := [0x0000beef, 0xffff1234] } = .next t ∧
    t.trace = [.regW 0x058 0, .regR 0x058 0x0000beef, .regW 0x058 0, .regR 0x058 0xffff1234,
      .resp 0 .ok [0xef, 0xbe, 0x34, 0x12]] := ⟨_, rfl, by decide +kernel⟩
theorem test_response_words :
    responseWords .ok [0xef, 0xbe, 0x34, 0x12] = [0x00000000, 0x1234beef]
    ∧ responseWords .timingUnsatisfiable [] = [0x00000003] ∧ responseWords .illegalCommand [] = [0x000000ff] := by
  decide +kernel

/-- 2.5. -/
theorem test_xfer :
    ∃ t, exec (.xfer 320 240 (some ⟨0x1000, 0x2000⟩)) { held with regs := { held.regs with control := 0x04 } } = .next t ∧
      t.trace = [.regW 0x044 0x00012c00, .regR 0x040 0x04, .regW 0x040 0x15, .resp 0 .ok []] ∧ t.xferPending = true ∧
      t.pendingCb = some ⟨0x1000, 0x2000⟩ := ⟨_, rfl, by decide +kernel, rfl, rfl⟩
theorem test_xfer_tear_elimination :
    ∃ t, exec (.xfer 65535 65535 none) { held with teActive := true, regs := { held.regs with control := 0x14 } } = .next t ∧
      t.trace = [.regW 0x044 0xfffe0001, .regR 0x040 0x14, .regW 0x040 0x15, .resp 0 .ok []] := ⟨_, rfl, by decide +kernel⟩
theorem test_frame_done :
    (completionStep { held with regs := { held.regs with control := 0x15 }, xferPending := true,
                                pendingCb := some ⟨0x1000, 0x2000⟩ }).trace
      = [.regR 0x040 0x15, .regW 0x040 0x14, .callback 0x1000 0x2000] := by decide +kernel
theorem test_frame_done_stray :
    (completionStep { held with regs := { held.regs with control := 0x14 } }).trace = [.regR 0x040 0x14, .regW 0x040 0x14] := by
  decide +kernel

/-- 60_exceptions.md R266, E1, with 70_reset_and_hazards.md R292: an XFER, a reset, then its late frame-done; a frame-done that
no XFER came before; two frame-dones for one XFER. -/
theorem test_once_per_transfer_late :
    oncePerTransferFor 5 0 { presented 0 [0x33000000, 0x00010001, 0, 0] with schedule := [.serve 0, .reset, .frameDone] } = true := by
  decide +kernel
theorem test_once_per_transfer_refused :
    oncePerTransferFor 1 0 { held with schedule := [.frameDone] } = false
    ∧ oncePerTransferFor 3 0 { presented 0 [0x33000000, 0x00010001, 0, 0] with schedule := [.serve 0, .frameDone, .frameDone] }
      = false := by
  decide +kernel

/-- 2.6. -/
theorem test_lock_waits : ∃ t, exec .lock { held with issuer := 1 } = .next t ∧ t.waiting = [1] ∧ t.trace = [] := ⟨_, rfl, rfl, rfl⟩
theorem test_unlock_by_other :
    ∃ t, exec .unlock { held with issuer := 1 } = .next t ∧ t.owner = some 0 ∧ t.trace = [.resp 1 .ok []] := ⟨_, rfl, rfl, rfl⟩
theorem test_grant : ∃ t, step { fresh with waiting := [0, 1], schedule := [.grant 1] } = .next t ∧
    t.owner = some 1 ∧ t.waiting = [0] ∧ t.trace = [.resp 1 .ok []] := ⟨_, rfl, rfl, rfl, rfl⟩
/-- 44_bus_controller.md R224, example. -/
theorem test_enable : ∃ t, exec (.enable .ch0) (ready true) = .next t ∧
    t.trace = [.powerAcquire true, .handlerRegister, .regR 0x040 0, .regW 0x040 0, .regW 0x060 0x00300220, .regW 0x06c 8,
      .regW 0x070 8, .regW 0x074 0, .regR 0x040 0, .regW 0x040 0x04, .regW 0x064 0x01008420, .regW 0x068 0x00400042,
      .regR 0x060 0x00300220, .regW 0x060 0x00300220, .mgrSetTimings .ch0, .resp 0 .ok []] ∧
    (t.enabled, t.powerRefs, t.handlerRegistered, t.parMode) = (true, 1, true, some .m8) :=
  ⟨_, rfl, by decide +kernel, by decide +kernel⟩
theorem test_enable_twice :
    ∃ t, exec (.enable .ch0) { ready true with enabled := true, handlerRegistered := true, powerRefs := 1 } = .next t ∧
      t.trace = [.powerAcquire true, .powerRelease, .resp 0 .handlerRegistrationFailed []] ∧ t.enabled = true :=
  ⟨_, rfl, rfl, rfl⟩
theorem test_disable :
    ∃ t, exec .disable { held with enabled := true, handlerRegistered := true, powerRefs := 1, xferPending := true } = .next t ∧
      t.trace = [.mgrDisable, .handlerUnregister, .powerRelease, .resp 0 .ok []] ∧ t.xferPending = true :=
  ⟨_, rfl, rfl, rfl⟩
theorem test_disable_idle :
    ∃ t, exec .disable held = .next t ∧ t.trace = [.mgrDisable, .resp 0 .ok []] := ⟨_, rfl, rfl⟩
theorem test_not_holder : ∃ t, exec (.configure .ch0 16 8) fresh = .next t ∧ t.fault = true ∧ t.trace = [] := ⟨_, rfl, rfl, rfl⟩
theorem test_reset_event : ∃ t, step { held with fault := true, waiting := [1], schedule := [.reset] } = .next t ∧
    t.fault = false ∧ t.waiting = [] ∧ t.trace = [] := ⟨_, rfl, rfl, rfl, rfl⟩

/-- 30_encoding.md R111. -/
theorem test_written : writtenBy 1 (.configure .ch1 18 9) = "r1: CONFIGURE 1, 18, 9"
    ∧ writtenInstr (.xfer 4 4 (some ⟨0xaa, 0xbb⟩)) = "XFER 4, 4, 170, 187" := by decide +kernel

/-! ## Witnesses: states and operands that meet the hypotheses of each statement of Obligations.lean, clause by clause -/

theorem witness_DecodeOfEncode :
    Instr.wf (.wrcmd (List.replicate 65535 0)) = true ∧ Instr.wf (.wrdata []) = true ∧ Instr.wf (.xfer 0 0xffff none) = true :=
  ⟨test_wf_longest, rfl, rfl⟩

theorem witness_LegalPacketIsTheEncoding : decode [0x31000000, 7] = .instr (.wrdata []) [7] := by decide +kernel

theorem witness_ReservedHeaderIsIllegal :
    field 0x00000000 31 24 = 0x00 ∧ field 0x05000000 31 24 = 0x05 ∧ field 0x0F000000 31 24 = 0x0F
    ∧ field 0x14000000 31 24 = 0x14 ∧ field 0x1F000000 31 24 = 0x1F ∧ field 0x22000000 31 24 = 0x22
    ∧ field 0x2F000000 31 24 = 0x2F ∧ field 0x34000000 31 24 = 0x34 ∧ field 0xFF000000 31 24 = 0xFF
    ∧ field 0x01020000 23 17 = 1 ∧ field 0x01800000 23 17 = 64 := by decide +kernel

theorem witness_BytesPackLittleEndian :
    ([1, 2, 3, 4, 5] : List Byte).length ≤ 5 ∧ 5 < 4 * ceilDiv 5 4 ∧ 7 < 4 * ceilDiv 5 4 := by decide

theorem witness_StepRunsDecodedOperation : ∃ u, Serves (presented 0 [0x01000000]) 0 .lock u :=
  ⟨_, [], [], rfl, by decide, by decide, by decide +kernel, rfl⟩

theorem witness_PlacedWordRunsNext : decodeTableWord 32 0x300000ff = some (.wrcmd (List.replicate 255 0)) := by decide +kernel

theorem witness_IllegalPacketAnswered :
    let s := presented 1 [0x05000000, 9]
    s.schedule = [.serve 1] ∧ 1 < s.params.nReq ∧ 1 ∉ s.waiting ∧ decode (s.portWords 1) = .illegal .header [9] := by
  decide +kernel

theorem witness_StepsExtendTheTraceAndKeepParameters :
    (∃ t, step (presented 0 [0x02000000]) = .next t) ∧ (presented 0 [0x02000000]).schedule.head? ≠ some .reset :=
  ⟨⟨_, rfl⟩, by decide⟩

theorem witness_ResetLeavesTheTable : ({ held with schedule := [.reset, .frameDone] } : State).schedule = [.reset, .frameDone] := rfl

theorem witness_LockRequestAndGrant :
    fresh.owner = none ∧ held.owner = some 0
    ∧ (let s : State := { fresh with waiting := [1], schedule := [.grant 1] }
       s.schedule = [.grant 1] ∧ s.owner = none ∧ 1 ∈ s.waiting ∧ ∃ t, step s = .next t) :=
  ⟨rfl, rfl, rfl, rfl, by decide, _, rfl⟩

theorem witness_UnlockReleasesFromHolderOnly : held.owner = some held.issuer ∧ fresh.owner ≠ some fresh.issuer :=
  ⟨rfl, by decide⟩

theorem witness_HolderLockDeadlocks :
    held.owner = some held.issuer
    ∧ (let s : State := { held with waiting := [0], schedule := [.frameDone] }
       s.owner = some 0 ∧ 0 ∈ s.waiting ∧ s.schedule.head? ≠ some .reset ∧ ∃ t, step s = .next t)
    ∧ (let s : State := { held with waiting := [0], schedule := [.grant 0] }
       s.owner = some 0 ∧ 0 ∈ s.waiting ∧ s.schedule.head? = some (.grant 0)) :=
  ⟨rfl, ⟨rfl, by decide, by decide, _, rfl⟩, rfl, by decide, rfl⟩

/-- One step for each way the holder, and each way `enabled`, changes. -/
theorem witness_ControllerTransitions :
    (∃ t, step { presented 1 [0x01000000] with owner := none } = .next t ∧ t.owner = some 1)
    ∧ (∃ t, step (presented 0 [0x02000000]) = .next t ∧ t.owner = none)
    ∧ (∃ t, step { fresh with waiting := [1], schedule := [.grant 1] } = .next t ∧ t.owner = some 1)
    ∧ (∃ t, step { held with schedule := [.reset] } = .next t ∧ t.owner = none)
    ∧ (∃ t, step { ready true with ports := [[0x03000000]], schedule := [.serve 0] } = .next t ∧ t.enabled = true)
    ∧ (∃ t, step { presented 0 [0x04000000] with enabled := true } = .next t ∧ t.enabled = false)
    ∧ (∃ t, step { held with enabled := true, schedule := [.reset] } = .next t ∧ t.enabled = false) :=
  ⟨⟨_, rfl, rfl⟩, ⟨_, rfl, rfl⟩, ⟨_, rfl, rfl⟩, ⟨_, rfl, rfl⟩, ⟨_, rfl, rfl⟩, ⟨_, rfl, rfl⟩, ⟨_, rfl, rfl⟩⟩

theorem witness_ViolationSetsStickyFault :
    needsLock .disable = true ∧ fresh.owner ≠ some fresh.issuer
    ∧ (∃ t, step { presented 0 [0x02000000] with fault := true } = .next t) ∧ ∃ t, exec .disable held = .next t :=
  ⟨rfl, by decide, ⟨_, rfl⟩, _, rfl⟩

theorem witness_FaultOnlyByNonHolder :
    (presented 1 [0x04000000]).fault = false ∧ ∃ t, step (presented 1 [0x04000000]) = .next t ∧ t.fault = true :=
  ⟨rfl, _, rfl, rfl⟩

theorem witness_NonHolderReachesNoRegister :
    let s := presented 1 [0x30000001, 0x0000002c]
    s.schedule.head? = some (.serve 1) ∧ s.owner ≠ some 1 ∧ ∃ t, step s = .next t := ⟨rfl, by decide, _, rfl⟩

theorem witness_CompletesExactlyWhereSpecified :
    specified (.solve .ch0) (ready true) ∧ specified (.solve .ch0) fresh ∧ ¬ specified (.solve .ch0) held := by
  refine ⟨.inl rfl, .inr ⟨rfl, by decide⟩, fun h => ?_⟩
  rcases h with h | h
  · exact absurd h (by decide)
  · exact h.2 rfl

theorem witness_UnspecifiedCasesRefused :
    (0 : Word).toNat = 0 ∧ 1000000000 < (1000000001 : Word).toNat
    ∧ (held.owner = some held.issuer ∧ held.clk = none)
    ∧ (held.owner = some held.issuer ∧ held.req.get .ch1 = none ∧ held.fmt.get .ch1 = none)
    ∧ (held.owner = some held.issuer ∧ held.parMode = none) := by
  refine ⟨by decide, by decide, ⟨rfl, rfl⟩, ⟨rfl, rfl, rfl⟩, rfl, rfl⟩

theorem witness_SetclkLoadsThePeriod : 1 ≤ (1 : Word).toNat ∧ (1000000000 : Word).toNat ≤ 1000000000 := by decide

theorem witness_ClassifyByRatio : 1 ≤ 1 := by decide

theorem witness_FormatTable : classify 18 12 = .ok .f32 := by decide

theorem witness_ConfigureWritesTheFormat :
    held.owner = some held.issuer
    ∧ formatWords held.params.layout (12 : Byte).toNat (8 : Byte).toNat
      = .ok ⟨0x00300600, 0x00000008, 0x00040004, 0x00080000, .m8⟩ := ⟨rfl, by decide +kernel⟩

theorem witness_FailedConfigureChangesNothing :
    held.owner = some held.issuer
    ∧ formatWords held.params.layout (12 : Byte).toNat (9 : Byte).toNat = .error .unsupportedRatio
    ∧ formatWords held.params.layout (0 : Byte).toNat (0 : Byte).toNat = .error .unsupportedFormat :=
  ⟨rfl, by decide +kernel, by decide +kernel⟩

/-- Clause by clause: CONFIGURE; ENABLE in its three ways to stop and in the one that writes; XFER; FRAME_DONE; a step that
changes CONTROL; bit numbers at the edges. -/
theorem witness_ControlBitByBit :
    (held.owner = some held.issuer ∧ formatWords held.params.layout (12 : Byte).toNat (12 : Byte).toNat
      = .ok ⟨0x00300002, 0x0000000c, 0, 0, .m12⟩)
    ∧ ((ready true).owner = some (ready true).issuer ∧ (ready true).clk = some ⟨20000⟩ ∧ (ready true).fmt.get .ch0 = some ⟨16, 8⟩
      ∧ (ready true).req.get .ch0 = some t9 ∧ (ready true).powerAnswers = [true] ∧ (ready true).handlerRegistered = false
      ∧ formatWords (ready true).params.layout (16 : Byte).toNat (8 : Byte).toNat
        = .ok ⟨0x00300220, 0x00000008, 0x00000008, 0x00000000, .m8⟩)
    ∧ ((ready false).powerAnswers = [false] ∧ ({ ready true with handlerRegistered := true } : State).handlerRegistered = true
      ∧ formatWords (ready true).params.layout (12 : Byte).toNat (9 : Byte).toNat = .error .unsupportedRatio)
    ∧ (held.owner = some held.issuer ∧ held.xferPending = false)
    ∧ ({ held with schedule := [.frameDone] } : State).schedule = [.frameDone]
    ∧ (∃ t, step (presented 0 [0x33000000, 0x00010001, 0, 0]) = .next t ∧ t.regs.control ≠ held.regs.control)
    ∧ (0 ≠ 1 ∧ 0 ≠ 2 ∧ 0 ≠ 3) ∧ (31 ≠ 1 ∧ 31 ≠ 2 ∧ 31 ≠ 3) ∧ (5 ≠ 0 ∧ 5 ≠ 4) :=
  ⟨⟨rfl, by decide +kernel⟩, ⟨rfl, rfl, rfl, rfl, rfl, rfl, by decide +kernel⟩, ⟨rfl, rfl, by decide +kernel⟩, ⟨rfl, rfl⟩, rfl,
    ⟨_, rfl, by decide⟩, by decide, by decide, by decide⟩

theorem witness_AcceptedExactlyByRawCounts : 1 ≤ 1 ∧ 1 ≤ 2 := by decide

/-- At the edges of the three clauses: 15 and 63, 30 and 126, and one above. -/
theorem witness_DividerInClosedForm :
    ((rawAt (reqPs (weOnly 15 63)) 1 1).weOn = 15 ∧ (rawAt (reqPs (weOnly 15 63)) 1 1).weOff = 63)
    ∧ ((rawAt (reqPs (weOnly 30 126)) 1 1).weOn = 30 ∧ (rawAt (reqPs (weOnly 30 126)) 1 1).weOff = 126)
    ∧ (rawAt (reqPs (weOnly 31 0)) 1 1).weOn = 31 ∧ (rawAt (reqPs (weOnly 0 127)) 1 1).weOff = 127 := by decide +kernel

theorem witness_MoreDividersSameSolution : (solve q2 10000 2).isSome = true ∧ 2 ≤ 3 := by decide +kernel

theorem witness_SolvedWordsHoldTheCounts : (solve (weOnly 15 63) 1 2).isSome = true := by decide +kernel

theorem witness_SolvedWordsAreOrdered : (solve (weOnly 0 0) 1 1).isSome = true := by decide +kernel

theorem witness_ZeroRequirementAndWorkedExample : 1 ≤ 1 := by decide

theorem witness_SolveWritesTheTiming :
    (ready true).owner = some (ready true).issuer ∧ (ready true).clk = some ⟨20000⟩ ∧ (ready true).req.get .ch0 = some t9
    ∧ (solve t9 20000 2).isSome = true := ⟨rfl, rfl, rfl, by decide +kernel⟩

theorem witness_FailedSolveClearsConverted :
    let s : State := { held with clk := some ⟨10000⟩, req := ⟨none, some q3⟩ }
    s.owner = some s.issuer ∧ s.clk = some ⟨10000⟩ ∧ s.req.get .ch1 = some q3 ∧ solve q3 10000 2 = none :=
  ⟨rfl, rfl, rfl, by decide +kernel⟩

theorem witness_GranIsBitFourAlone :
    formatWords defaultLayout 12 12 = .ok ⟨0x00300002, 0x0000000c, 0, 0, .m12⟩ ∧ 3 ≠ 4 ∧ 31 ≠ 4 := by decide +kernel

theorem witness_UnitsOfABuffer : 2 < ([1, 2, 3] : List Byte).length ∧ 2 * 0 + 1 < ([1, 2, 3] : List Byte).length := by decide

theorem witness_WriteStreamsMoveUnits :
    ((heldIn .m8).owner = some (heldIn .m8).issuer ∧ (heldIn .m8).parMode = some .m8)
    ∧ ((heldIn .m16).owner = some (heldIn .m16).issuer ∧ (heldIn .m16).parMode = some .m16
      ∧ ([] : List Byte).length % 2 = 0 ∧ ([1, 2] : List Byte).length % 2 = 0) := ⟨⟨rfl, rfl⟩, rfl, rfl, rfl, rfl⟩

theorem witness_ReadDataAnswers :
    (let s : State := { heldIn .m8 with readAnswers := [0xa5, 0xffffff5a, 7] }
     s.owner = some s.issuer ∧ s.parMode = some .m8 ∧ ([0xa5, 0xffffff5a] : List Word).length = (2 : Half).toNat
       ∧ s.readAnswers = [0xa5, 0xffffff5a] ++ [7])
    ∧ (let s : State := { heldIn .m16 with readAnswers := [0x0000beef] }
       s.owner = some s.issuer ∧ s.parMode = some .m16 ∧ 2 * ([0x0000beef] : List Word).length = (2 : Half).toNat
         ∧ s.readAnswers = [0x0000beef] ++ []) := ⟨⟨rfl, rfl, rfl, rfl⟩, rfl, rfl, rfl, rfl⟩

theorem witness_ReadDataCompletesOnAnyAnswers :
    (heldIn .m8).owner = some (heldIn .m8).issuer ∧ (heldIn .m8).parMode = some .m8
    ∧ (heldIn .m16).parMode = some .m16 ∧ (65534 : Half).toNat % 2 = 0 := ⟨rfl, rfl, rfl, by decide⟩

theorem witness_FailedStreamMovesNothing :
    (heldIn .m9).owner = some (heldIn .m9).issuer ∧ (heldIn .m9).parMode = some .m9 ∧ (heldIn .m12).parMode = some .m12
    ∧ (heldIn .m16).parMode = some .m16 ∧ ([1] : List Byte).length % 2 = 1 ∧ (65535 : Half).toNat % 2 = 1 :=
  ⟨rfl, rfl, rfl, rfl, rfl, by decide⟩

theorem witness_TransferStarts : held.owner = some held.issuer ∧ held.xferPending = false := ⟨rfl, rfl⟩

/-- Clause by clause: an XFER accepted; a step with one pending (another requester's UNLOCK); a holder with one pending that
another requester started; two XFERs in a row. -/
theorem witness_SecondTransferRefused :
    (held.owner = some held.issuer ∧ held.xferPending = false)
    ∧ (let s : State := { presented 1 [0x02000000] with xferPending := true, pendingCb := some ⟨1, 2⟩ }
       (∃ t, step s = .next t) ∧ s.xferPending = true ∧ s.schedule.head? ≠ some .frameDone ∧ s.schedule.head? ≠ some .reset)
    ∧ (let s : State := { held with owner := some 1, issuer := 1, xferPending := true, pendingCb := some ⟨1, 2⟩ }
       s.owner = some s.issuer ∧ s.xferPending = true)
    ∧ ∃ t, exec (.xfer 0 240 none) held = .next t :=
  ⟨⟨rfl, rfl⟩, ⟨⟨_, rfl⟩, rfl, by decide, by decide⟩, ⟨rfl, rfl⟩, _, rfl⟩

theorem witness_PixelCountDoesNotWrap : held.owner = some held.issuer ∧ held.xferPending = false := ⟨rfl, rfl⟩

theorem witness_CompletionTakesTheCallback :
    ({ held with schedule := [.frameDone], xferPending := true, pendingCb := some ⟨1, 2⟩ } : State).schedule = [.frameDone] := rfl

theorem witness_AtMostOneCallbackPerTransfer :
    (let s := presented 0 [0x33000001, 0x00010001, 7, 8]
     s.pendingCb = none ∧ ∃ t, step s = .next t ∧ t.pendingCb = some ⟨7, 8⟩)
    ∧ (let s : State := { held with schedule := [.frameDone], xferPending := true, pendingCb := some ⟨7, 8⟩ }
       s.schedule.head? = some .frameDone ∧ s.schedule.head? ≠ some .reset
         ∧ ∃ t, step s = .next t ∧ t.trace = s.trace ++ [.regR 0x040 0, .regW 0x040 0, .callback 7 8]) :=
  ⟨⟨rfl, _, rfl, rfl⟩, rfl, by decide, _, rfl, by decide +kernel⟩

theorem witness_IteNeverCleared :
    let s : State := { held with regs := { held.regs with control := 0x15 }, schedule := [.frameDone] }
    (∃ t, step s = .next t) ∧ s.schedule.head? ≠ some .reset ∧ s.regs.control.getLsbD 4 = true :=
  ⟨⟨_, rfl⟩, by decide, by decide⟩

theorem witness_EnableBringsUpTheChannel :
    (ready true).owner = some (ready true).issuer ∧ (ready true).clk = some ⟨20000⟩ ∧ (ready true).fmt.get .ch0 = some ⟨16, 8⟩
    ∧ (ready true).req.get .ch0 = some t9 ∧ (ready true).powerAnswers = [true] ∧ (ready true).handlerRegistered = false
    ∧ formatWords (ready true).params.layout (16 : Byte).toNat (8 : Byte).toNat
      = .ok ⟨0x00300220, 0x00000008, 0x00000008, 0x00000000, .m8⟩
    ∧ (solve t9 20000 2).isSome = true :=
  ⟨rfl, rfl, rfl, rfl, rfl, rfl, by decide +kernel, by decide +kernel⟩

/-- One state for each row of 44_bus_controller.md R225. -/
theorem witness_FailedEnableRollsBack :
    ((ready false).owner = some (ready false).issuer ∧ (ready false).clk = some ⟨20000⟩ ∧ (ready false).req.get .ch0 = some t9
      ∧ (ready false).fmt.get .ch0 = some ⟨16, 8⟩ ∧ (ready false).powerAnswers = [false])
    ∧ (({ ready true with handlerRegistered := true } : State).powerAnswers = [true])
    ∧ (let s : State := { ready true with fmt := ⟨some ⟨12, 9⟩, none⟩ }
       s.powerAnswers = [true] ∧ s.handlerRegistered = false
         ∧ formatWords s.params.layout (12 : Byte).toNat (9 : Byte).toNat = .error .unsupportedRatio)
    ∧ (let s : State := { ready true with clk := some ⟨10000⟩, req := ⟨some q3, none⟩, fmt := ⟨some ⟨12, 12⟩, none⟩ }
       s.powerAnswers = [true] ∧ s.handlerRegistered = false
         ∧ formatWords s.params.layout (12 : Byte).toNat (12 : Byte).toNat = .ok ⟨0x00300002, 0x0000000c, 0, 0, .m12⟩
         ∧ solve q3 10000 2 = none) :=
  ⟨⟨rfl, rfl, rfl, rfl, rfl⟩, rfl, ⟨rfl, rfl, by decide +kernel⟩, rfl, rfl, by decide +kernel, by decide +kernel⟩

theorem witness_EnableCompletesOnAnyAnswer :
    let s : State := { ready true with powerAnswers := [] }
    s.owner = some s.issuer ∧ s.clk.isSome = true ∧ (s.fmt.get .ch0).isSome = true ∧ (s.req.get .ch0).isSome = true
      ∧ Channel.ch1 ≠ Channel.ch0 := ⟨rfl, rfl, rfl, rfl, by decide⟩

theorem witness_DisableTearsDown : held.owner = some held.issuer := rfl

/-- Both ends of every range of offsets. -/
theorem witness_UnlistedOffsetsRefused :
    0x001 % 4 ≠ 0 ∧ (0x004 ≤ 0x004 ∧ 0x004 ≤ 0x03c) ∧ (0x004 ≤ 0x03c ∧ 0x03c ≤ 0x03c) ∧ 0x048 = 0x048 ∧ 0x05c = 0x05c
    ∧ 0x090 ≤ 0x090 := by decide

theorem witness_RegistersReadTheLastWrite :
    (∃ t t', regWriteAt 0x040 1 held = .ok t ∧ 0x08c ≠ 0x040 ∧ regWriteAt 0x08c 2 t = .ok t'
      ∧ 0x040 ∉ [0x000, 0x04c, 0x050, 0x054, 0x058])
    ∧ (∃ t t', regWriteAt 0x000 1 held = .ok t ∧ 0x058 ≠ 0x000 ∧ regWriteAt 0x058 2 t = .ok t') :=
  ⟨⟨_, _, rfl, by decide, rfl, by decide⟩, _, _, rfl, by decide, rfl⟩

theorem witness_NoAccessOutsideTheTable :
    let s : State := { presented 0 [0x30000001, 0x0000002c] with parMode := some .m8 }
    s.schedule.head? ≠ some .reset
      ∧ ∃ t, step s = .next t ∧ t.trace = s.trace ++ [.regW 0x04c 0x2c, .resp 0 .ok []] :=
  ⟨by decide, _, rfl, by decide +kernel⟩

/-- A state with both channels converted and the bus enabled meets the invariant and steps. -/
def running : State :=
  { held with
    clk := some ⟨20000⟩, req := ⟨some t9, some t9⟩, waiting := [1], enabled := true, handlerRegistered := true, powerRefs := 1,
    solved := ⟨⟨true, 1, 0x01008420, 0x00400042, 0, ⟨0, 0, 20000, 20000, 0, 0, 0, 0, 0, 0⟩⟩,
      ⟨true, 1, 0x01008420, 0x00400042, 0, ⟨0, 0, 20000, 20000, 0, 0, 0, 0, 0, 0⟩⟩⟩,
    schedule := [.frameDone] }

theorem witness_EveryStepKeepsTheInvariant : Invariant running ∧ ∃ t, step running = .next t := by
  refine ⟨?_, _, rfl⟩
  constructor
  · decide
  · decide
  · intro r h; cases h; decide
  · decide
  · rfl
  · rfl
  · intro clk h; cases h; decide
  · decide
  · decide
  · intro n _
    refine ⟨⟨20000⟩, t9, ⟨1, 0x01008420, 0x00400042, ⟨0, 0, 20000, 20000, 0, 0, 0, 0, 0, 0⟩⟩, rfl, ?_, by decide +kernel, ?_⟩
    · cases n <;> rfl
    · cases n <;> decide +kernel

theorem witness_ConvertedTimingIsOrdered : Invariant running ∧ running.converted .ch1 = true :=
  ⟨witness_EveryStepKeepsTheInvariant.1, rfl⟩

end Sys2Proof.Tests
end

section
/-! The bits and fields of CONTROL after each of its writes (spec/10_state.md R36, spec/30_encoding.md R94). -/

namespace Sys2Proof.Machine

/-! ## Fields by their bits -/

theorem field_eq_extractLsb' (v : Word) (hi lo : Nat) : field v hi lo = (v.extractLsb' lo (hi - lo + 1)).toNat := by
  rw [BitVec.extractLsb'_toNat, Nat.shiftRight_eq_div_pow, field]

/-- A field is determined by the bits it covers. -/
theorem field_congr {v w : Word} {hi lo : Nat} (hle : lo ≤ hi)
    (h : ∀ i, lo ≤ i → i ≤ hi → v.getLsbD i = w.getLsbD i) : field v hi lo = field w hi lo := by
  rw [field_eq_extractLsb', field_eq_extractLsb']
  congr 1
  apply BitVec.eq_of_getLsbD_eq
  intro i hi'
  simp [hi', h (lo + i) (by omega) (by omega)]

/-! ## The word functions -/

/-- CONFIGURE's last write replaces BYPASS and CS_SEL together, as one field of three bits (R147). -/
theorem controlSelected_eq_setField (v : Word) (n : Channel) : controlSelected v n = setField v 3 1 (csSelect n <<< 1) := by
  cases n <;> rfl

theorem csSelect_getLsbD_high (n : Channel) {j : Nat} (h : 2 < j) : (csSelect n <<< 1).getLsbD j = false := by
  have hlt : (csSelect n <<< 1).toNat < 2 ^ j :=
    lt_of_lt_of_le (show _ < 2 ^ 3 by cases n <;> decide) (Nat.pow_le_pow_right (by decide) h)
  exact Nat.testBit_eq_false_of_lt hlt

theorem controlSelected_other_bits (v : Word) (n : Channel) {i : Nat} (h1 : i ≠ 1) (h2 : i ≠ 2) (h3 : i ≠ 3) :
    (controlSelected v n).getLsbD i = v.getLsbD i := by
  rw [controlSelected_eq_setField]
  exact setField_getLsbD_outside (by decide) (by decide) v (fun _ hj => csSelect_getLsbD_high n hj) (by omega)

theorem controlSelected_select (v : Word) (n : Channel) : field (controlSelected v n) 3 2 = n.num + 1 := by
  have hbits : field (controlSelected v n) 3 2 = field (controlSelected 0 n) 3 2 :=
    field_congr (by decide) fun i hlo hhi => by
      rw [controlSelected_eq_setField, controlSelected_eq_setField,
        setField_getLsbD_inside (by decide) v _ (by omega) hhi, setField_getLsbD_inside (by decide) 0 _ (by omega) hhi]
  rw [hbits]
  cases n <;> rfl

theorem controlSelected_bypass (v : Word) (n : Channel) : (controlSelected v n).getLsbD 1 = false := by
  rw [controlSelected_eq_setField, setField_getLsbD_inside (by decide) v _ (by decide) (by decide)]
  cases n <;> rfl

theorem deselect_select (v : Word) : field (setField v 3 2 0) 3 2 = 0 := by
  have hbits : field (setField v 3 2 0) 3 2 = field 0 3 2 :=
    field_congr (by decide) fun i hlo hhi => by
      rw [setField_getLsbD_inside (by decide) v 0 hlo hhi]
      simp
  rw [hbits]
  rfl

theorem deselect_other_bits (v : Word) {i : Nat} (h2 : i ≠ 2) (h3 : i ≠ 3) :
    (setField v 3 2 0).getLsbD i = v.getLsbD i :=
  setField_getLsbD_outside (by decide) (by decide) v (by simp) (by omega)

/-- What CONFIGURE's two writes of CONTROL leave outside BYPASS and CS_SEL. -/
theorem reselect_other_bits (v : Word) (n : Channel) {i : Nat} (h1 : i ≠ 1) (h2 : i ≠ 2) (h3 : i ≠ 3) :
    (controlSelected (setField v 3 2 0) n).getLsbD i = v.getLsbD i := by
  rw [controlSelected_other_bits _ n h1 h2 h3, deselect_other_bits v h2 h3]

theorem controlStarted_getLsbD (v : Word) (te : Bool) (i : Nat) :
    (controlStarted v te).getLsbD i = (v.getLsbD i || decide (i = 0) || (decide (i = 4) && !te)) := by
  have h4 : (0x00000010#32).getLsbD i = decide (i = 4) := by
    rw [show (0x00000010#32) = BitVec.twoPow 32 4 from rfl, BitVec.getLsbD_twoPow]
    simp [eq_comm]
  cases te <;> simp [controlStarted, BitVec.getLsbD_one, h4]

theorem controlStarted_other_bits (v : Word) (te : Bool) {i : Nat} (h0 : i ≠ 0) (h4 : i ≠ 4) :
    (controlStarted v te).getLsbD i = v.getLsbD i := by
  simp [controlStarted_getLsbD, h0, h4]

theorem clearEnable_bit (v : Word) : (setField v 0 0 0).getLsbD 0 = false := by
  rw [setField_getLsbD_inside (by decide) v 0 (le_refl 0) (le_refl 0)]
  rfl

theorem clearEnable_other_bits (v : Word) {i : Nat} (h : i ≠ 0) : (setField v 0 0 0).getLsbD i = v.getLsbD i :=
  setField_getLsbD_outside (by decide) (by decide) v (by simp) (by omega)

end Sys2Proof.Machine
end

section
/-! What an operation that answers a next state can have done: one case per way it ends. -/

namespace Sys2Proof.Machine

/-- The ways an operation issued in `s` ends in a next state, one constructor for each way that leaves a different frame. -/
inductive Effect (s : State) : Instr → State → Prop where
  /-- `fault NotHolder` (60_exceptions.md R262). -/
  | violation {i : Instr} : needsLock i = true → ¬ s.issuerHolds → Effect s i (setFault s)
  /-- Nothing but events, and inputs of the environment used up: an error status, a stream, an UNLOCK by no holder. -/
  | answers {i : Instr} (es : List Event) (vs : List Word) (oks : List Bool) (d : Nat) :
      Effect s i { s with trace := s.trace ++ es, readAnswers := vs, powerAnswers := oks, draws := d }
  | takesLock : s.owner = none → Effect s .lock (respond .ok [] { s with owner := some s.issuer })
  | waits {o : Nat} : s.owner = some o → Effect s .lock { s with waiting := insertWaiter s.issuer s.waiting }
  | releasesLock : s.issuerHolds → Effect s .unlock (respond .ok [] { s with owner := none })
  /-- ENABLE that failed in the solver, with the format written and the rollback done (R225). -/
  | enableUnsatisfiable {n : Channel} {fmt : BusFormat} {w : FormatWords} {timing : SolvedTiming}
      (oks : List Bool) (d : Nat) (es : List Event) :
      s.issuerHolds → s.fmt.get n = some fmt →
      formatWords s.params.layout fmt.depth.toNat fmt.lines.toNat = .ok w → timing.converted = false →
      Effect s (.enable n)
        { s with
          regs := (writeFormat n w s).regs, parMode := some w.mode, solved := s.solved.set n timing,
          powerAnswers := oks, draws := d, trace := s.trace ++ es }
  | enables {n : Channel} {fmt : BusFormat} {w : FormatWords} {clk : ClockContext} {req : TimingReq} {r : Solution}
      (oks : List Bool) (d : Nat) (es : List Event) :
      s.issuerHolds → s.fmt.get n = some fmt →
      formatWords s.params.layout fmt.depth.toNat fmt.lines.toNat = .ok w → s.handlerRegistered = false →
      s.clk = some clk → s.req.get n = some req → solve req clk.periodPs Config.maxDiv = some r →
      Effect s (.enable n)
        { s with
          regs := (writeTiming n (solvedOf r) (writeFormat n w s)).regs, parMode := some w.mode,
          solved := s.solved.set n (solvedOf r), enabled := true, handlerRegistered := true,
          powerRefs := s.powerRefs + 1, powerAnswers := oks, draws := d, trace := s.trace ++ es }
  | tearsDown : s.issuerHolds → Effect s .disable (respond .ok [] (teardown s))
  | loadsClock {rate : Word} : rateInRange rate = true →
      Effect s (.setclk rate)
        (respond .ok [] (clearConverted .ch1 (clearConverted .ch0 { s with clk := some ⟨periodOf rate⟩ })))
  | loadsRequirement {n : Channel} {req : TimingReq} :
      Effect s (.setreq n req) (respond .ok [] (clearConverted n { s with req := s.req.set n (some req) }))
  | loadsFormat {n : Channel} {depth lines : Byte} :
      Effect s (.setfmt n depth lines) (respond .ok [] { s with fmt := s.fmt.set n (some ⟨depth, lines⟩) })
  | loadsTearFlag {flag : Bool} : Effect s (.sette flag) (respond .ok [] (setTeActive flag s))
  | configures {n : Channel} {depth lines : Byte} {w : FormatWords} :
      s.issuerHolds → formatWords s.params.layout depth.toNat lines.toNat = .ok w →
      Effect s (.configure n depth lines) (respond .ok [] (writeFormat n w s))
  | solves {n : Channel} {clk : ClockContext} {req : TimingReq} {r : Solution} :
      s.issuerHolds → s.clk = some clk → s.req.get n = some req → solve req clk.periodPs Config.maxDiv = some r →
      Effect s (.solve n)
        (respond .ok [] (writeTiming n (solvedOf r) { s with solved := s.solved.set n (solvedOf r) }))
  | solveUnsatisfiable {n : Channel} :
      s.issuerHolds → Effect s (.solve n) (respond .timingUnsatisfiable [] (clearConverted n s))
  | startsTransfer {width height : Half} {callback : Option Callback} :
      s.issuerHolds → s.xferPending = false →
      Effect s (.xfer width height callback)
        (respond .ok [] (setXferPending true { writeTransfer width height s with pendingCb := callback }))

/-- An answer that sends one event and does nothing else. -/
theorem Effect.of_respond {s : State} {i : Instr} (status : Status) : Effect s i (respond status [] s) :=
  .answers [.resp s.issuer status []] s.readAnswers s.powerAnswers s.draws

/-- The effect of a stream, from that of its body: the checks before it only answer. -/
theorem Effect.of_withStream {s t : State} {i : Instr} {len : Nat} {body : UnitSize → State → Result}
    (hi : needsLock i = true) (hbody : ∀ u, body u s = .next t → Effect s i t)
    (h : withStream len body s = .next t) : Effect s i t := by
  rcases withStream_next h with ⟨ho, rfl⟩ | ⟨-, e, -, rfl⟩ | ⟨-, u, -, hb⟩
  · exact .violation hi ho
  · exact .of_respond e
  · exact hbody u hb

/-- The effect of writing units to a port that stores nothing. -/
theorem Effect.of_writeUnits {s : State} {i : Instr} {r : Reg} (hr : r.stores = false) (ws : List Word) :
    Effect s i (respond .ok [] (writeUnits r ws s)) := by
  rw [writeUnits_port hr]
  simpa [respond, emit] using
    Effect.answers (s := s) (i := i) (ws.map (fun w => Event.regW r.offset w) ++ [.resp s.issuer .ok []])
      s.readAnswers s.powerAnswers s.draws

/-- All an operation can do that answers a next state. -/
theorem exec_effect {i : Instr} {s t : State} (h : exec i s = .next t) : Effect s i t := by
  cases i <;> simp only [exec] at h
  case lock =>
    unfold execLock at h
    split at h
    · next ho => cases h; exact .takesLock ho
    · next ho => cases h; exact .waits ho
  case unlock =>
    unfold execUnlock at h
    split at h
    · next ho => cases h; exact .releasesLock ho
    · cases h; exact .of_respond .ok
  case enable n =>
    rcases withLock_next h with ⟨ho, hb⟩ | ⟨ho, rfl⟩
    · split at hb
      · next clk fmt req hc hf hr =>
        obtain ⟨oks, d, es, he | ⟨w, hw, hh, ⟨timing, ht, he⟩ | ⟨r, hs, he⟩⟩⟩ := enableBody_cases n fmt req clk s <;>
          rw [he] at hb <;> cases hb
        · exact .answers es s.readAnswers oks d
        · simpa only [writeFormat_eq] using Effect.enableUnsatisfiable oks d es ho hf hw ht
        · simpa only [writeFormat_eq, writeTiming_eq] using Effect.enables oks d es ho hf hw hh hc hr hs
      · cases hb
    · exact .violation rfl ho
  case disable =>
    rcases withLock_next h with ⟨ho, hb⟩ | ⟨ho, rfl⟩
    · cases hb; exact .tearsDown ho
    · exact .violation rfl ho
  case setclk rate =>
    unfold execSetclk at h
    split at h
    · next hr => cases h; exact .loadsClock hr
    · cases h
  case setreq => cases h; exact .loadsRequirement
  case setfmt => cases h; exact .loadsFormat
  case sette => cases h; exact .loadsTearFlag
  case configure n depth lines =>
    rcases withLock_next h with ⟨ho, hb⟩ | ⟨ho, rfl⟩
    · rcases configureBody_cases n depth lines s with ⟨e, -, hc⟩ | ⟨w, hw, hc⟩ <;> rw [hc] at hb <;> cases hb
      · exact .of_respond e
      · exact .configures ho hw
    · exact .violation rfl ho
  case solve n =>
    rcases withLock_next h with ⟨ho, hb⟩ | ⟨ho, rfl⟩
    · split at hb
      · next clk req hc hr =>
        rcases solveBody_cases n req clk s with ⟨-, he⟩ | ⟨r, hs, he⟩ <;> rw [he] at hb <;> cases hb
        · exact .solveUnsatisfiable ho
        · exact .solves ho hc hr hs
      · cases hb
    · exact .violation rfl ho
  case wrcmd bytes =>
    exact .of_withStream rfl (fun u hb => by cases hb; exact .of_writeUnits rfl _) h
  case wrdata bytes =>
    exact .of_withStream rfl (fun u hb => by cases hb; exact .of_writeUnits rfl _) h
  case rddata len =>
    refine .of_withStream rfl (fun u hb => ?_) h
    obtain ⟨es, vs, d, he⟩ := readUnits_frame u (unitCount u len.toNat) s
    simp only [he] at hb
    cases hb
    simpa [respond, emit] using Effect.answers (s := s) (i := .rddata len)
      (es ++ [.resp s.issuer .ok (readUnits u (unitCount u len.toNat) s).1]) vs s.powerAnswers d
  case xfer width height callback =>
    rcases withLock_next h with ⟨ho, hb⟩ | ⟨ho, rfl⟩
    · split at hb
      · cases hb; exact .of_respond .transferAlreadyPending
      · next hp => cases hb; exact .startsTransfer ho (by simpa using hp)
    · exact .violation rfl ho

/-- No operation changes the parameters (R11). -/
theorem Effect.params_eq {i : Instr} {s t : State} (h : Effect s i t) : t.params = s.params := by
  cases h <;> simp [setFault, setTeActive, teardown_eq, writeFormat_eq, writeTiming_eq, writeTransfer_eq]

/-- An operation only appends to the trace. -/
theorem Effect.trace_extends {i : Instr} {s t : State} (h : Effect s i t) : s.trace <+: t.trace := by
  cases h <;> simp [setFault, setTeActive, teardown_eq, writeFormat_eq, writeTiming_eq, writeTransfer_eq]

end Sys2Proof.Machine
end

section
/-! The invariant of the reachable states: at reset, over an operation, over a step (spec/10_state.md R51). -/

namespace Sys2Proof.Machine

/-! ## CONTROL's part of the invariant -/

/-- What the invariant says of CONTROL: bits 31:5 zero (R36), CS_SEL never 3 (R94). -/
def ControlLegal (v : Word) : Prop := field v 31 5 = 0 ∧ field v 3 2 ≤ 2

/-- The formatter's writes keep bits 31:5 and put a channel's code in CS_SEL (R147). -/
theorem controlLegal_reselect {v : Word} (h : ControlLegal v) (n : Channel) :
    ControlLegal (controlSelected (setField v 3 2 0) n) := by
  refine ⟨?_, ?_⟩
  · rw [field_congr (by decide) fun i hlo _ => reselect_other_bits v n (by omega) (by omega) (by omega)]
    exact h.1
  · rw [controlSelected_select]
    cases n <;> decide

theorem controlLegal_started {v : Word} (h : ControlLegal v) (te : Bool) : ControlLegal (controlStarted v te) := by
  refine ⟨?_, ?_⟩
  · rw [field_congr (by decide) fun i hlo _ => controlStarted_other_bits v te (by omega) (by omega)]
    exact h.1
  · rw [field_congr (by decide) fun i hlo hhi => controlStarted_other_bits v te (by omega) (by omega)]
    exact h.2

theorem controlLegal_clearEnable {v : Word} (h : ControlLegal v) : ControlLegal (setField v 0 0 0) := by
  refine ⟨?_, ?_⟩
  · rw [field_congr (by decide) fun i hlo _ => clearEnable_other_bits v (by omega)]
    exact h.1
  · rw [field_congr (by decide) fun i hlo _ => clearEnable_other_bits v (by omega)]
    exact h.2

/-- Whatever an operation writes to CONTROL is legal again. -/
theorem exec_keeps_controlLegal {i : Instr} {s t : State} (h : ControlLegal s.regs.control) (he : exec i s = .next t) :
    ControlLegal t.regs.control := by
  rcases exec_control he with hc | ⟨-, ⟨n, _, _, -, hc⟩ | ⟨n, -, hc⟩ | ⟨_, _, _, -, hc⟩⟩ <;> rw [hc]
  · exact h
  · exact controlLegal_reselect h n
  · exact controlLegal_reselect h n
  · exact controlLegal_started h s.teActive

/-! ## The converted timings -/

/-- A change of one channel's requirement or solved timing leaves the other channel's converted timing current. -/
theorem converted_current_of_one_channel {s t : State} {n : Channel}
    (h : ∀ m, s.converted m = true → SolvedIsCurrent s m) (hclk : t.clk = s.clk)
    (hothers : ∀ m, m ≠ n → t.req.get m = s.req.get m ∧ t.solved.get m = s.solved.get m)
    (hn : t.converted n = true → SolvedIsCurrent t n) : ∀ m, t.converted m = true → SolvedIsCurrent t m := by
  intro m hm
  by_cases hmn : m = n
  · subst hmn
    exact hn hm
  · obtain ⟨hreq, hsolved⟩ := hothers m hmn
    unfold State.converted at hm
    unfold SolvedIsCurrent
    rw [hclk, hreq, hsolved]
    exact h m (by rwa [hsolved] at hm)

/-- The case of a solved timing replaced by an unconverted one, with the clock and the requirements kept. -/
theorem converted_current_of_cleared {s t : State} {n : Channel} {timing : SolvedTiming}
    (h : ∀ m, s.converted m = true → SolvedIsCurrent s m) (hclk : t.clk = s.clk) (hreq : t.req = s.req)
    (hsolved : t.solved = s.solved.set n timing) (ht : timing.converted = false) :
    ∀ m, t.converted m = true → SolvedIsCurrent t m := by
  refine converted_current_of_one_channel h hclk (n := n) (fun m hm => ?_) (fun hc => ?_)
  · rw [hreq, hsolved]
    exact ⟨rfl, PerChannel.get_set_other _ hm _⟩
  · rw [State.converted, hsolved, PerChannel.get_set_same, ht] at hc
    cases hc

/-- The case of a solved timing replaced by the solution of what is loaded. -/
theorem converted_current_of_solution {s t : State} {n : Channel} {clk : ClockContext} {req : TimingReq} {r : Solution}
    (h : ∀ m, s.converted m = true → SolvedIsCurrent s m) (hclk : t.clk = s.clk) (hreq : t.req = s.req)
    (hsolved : t.solved = s.solved.set n (solvedOf r)) (hc : s.clk = some clk) (hr : s.req.get n = some req)
    (hs : solve req clk.periodPs Config.maxDiv = some r) : ∀ m, t.converted m = true → SolvedIsCurrent t m := by
  refine converted_current_of_one_channel h hclk (n := n) (fun m hm => ?_) (fun _ => ?_)
  · rw [hreq, hsolved]
    exact ⟨rfl, PerChannel.get_set_other _ hm _⟩
  · exact ⟨clk, req, r, by rw [hclk, hc], by rw [hreq, hr], hs, by rw [hsolved, PerChannel.get_set_same]⟩

/-- After a SETREQ the channel's timing is not converted and the other channel's is as it was. -/
theorem converted_current_of_requirement {s t : State} {n : Channel} {req : Option TimingReq} {timing : SolvedTiming}
    (h : ∀ m, s.converted m = true → SolvedIsCurrent s m) (hclk : t.clk = s.clk) (hreq : t.req = s.req.set n req)
    (hsolved : t.solved = s.solved.set n timing) (ht : timing.converted = false) :
    ∀ m, t.converted m = true → SolvedIsCurrent t m := by
  refine converted_current_of_one_channel h hclk (n := n) (fun m hm => ?_) (fun hc => ?_)
  · rw [hreq, hsolved]
    exact ⟨PerChannel.get_set_other _ hm _, PerChannel.get_set_other _ hm _⟩
  · rw [State.converted, hsolved, PerChannel.get_set_same, ht] at hc
    cases hc

/-- A clock rate in range has a period of at least one picosecond (R130, R21). -/
theorem periodOf_pos {rate : Word} (h : rateInRange rate = true) : 1 ≤ periodOf rate := by
  obtain ⟨hlo, hhi⟩ := of_decide_eq_true h
  exact Nat.div_pos hhi hlo

/-! ## An operation keeps the invariant -/

/-- An operation whose issuer is one of the ports keeps the invariant: each of its effects does. -/
theorem exec_keeps_invariant {i : Instr} {s t : State} (h : Invariant s) (hport : s.issuer < s.params.nReq)
    (he : exec i s = .next t) : Invariant t := by
  obtain ⟨hupper, hselect⟩ := exec_keeps_controlLegal ⟨h.control_upper, h.control_select⟩ he
  cases exec_effect he with
  | violation => exact { h with }
  | answers => exact { h with }
  | takesLock => exact { h with owner_port := fun r hr => by cases hr; exact hport }
  | waits =>
    exact { h with
      waiting_rising := insertWaiter_rising h.waiting_rising
      waiting_ports := fun w hw => by
        rcases mem_insertWaiter.mp hw with rfl | hw
        · exact hport
        · exact h.waiting_ports w hw }
  | releasesLock => exact { h with owner_port := fun r hr => by cases hr }
  | enableUnsatisfiable oks d es _ _ _ ht =>
    exact { h with
      control_upper := hupper
      control_select := hselect
      converted_current := converted_current_of_cleared h.converted_current rfl rfl rfl ht }
  | enables oks d es _ _ _ hh hc hr hs =>
    have hoff : s.enabled = false := by rw [← h.handler_enabled, hh]
    exact { h with
      handler_enabled := rfl
      power_enabled := by simp [h.power_enabled, hoff]
      control_upper := hupper
      control_select := hselect
      converted_current := converted_current_of_solution h.converted_current rfl rfl rfl hc hr hs }
  | tearsDown =>
    rw [teardown_eq]
    exact { h with
      handler_enabled := rfl
      power_enabled := by
        have hp := h.power_enabled
        cases hen : s.enabled <;> simp [hp, hen] }
  | loadsClock hrate =>
    exact { h with
      period_positive := fun clk hclk => by cases hclk; exact periodOf_pos hrate
      converted_current := fun m hm => by cases m <;> cases hm }
  | loadsRequirement =>
    exact { h with
      converted_current :=
        converted_current_of_requirement h.converted_current rfl rfl rfl (unsolvedTiming_converted _ _ _ _ _) }
  | loadsFormat => exact { h with }
  | loadsTearFlag => exact { h with }
  | configures =>
    rw [writeFormat_eq] at hupper hselect ⊢
    exact { h with
      control_upper := hupper
      control_select := hselect }
  | solves _ hc hr hs =>
    rw [writeTiming_eq]
    exact { h with
      converted_current := converted_current_of_solution h.converted_current rfl rfl rfl hc hr hs }
  | solveUnsatisfiable =>
    exact { h with
      converted_current :=
        converted_current_of_cleared h.converted_current rfl rfl rfl (unsolvedTiming_converted _ _ _ _ _) }
  | startsTransfer =>
    rw [writeTransfer_eq] at hupper hselect ⊢
    exact { h with
      callback_pending := fun _ => rfl
      control_upper := hupper
      control_select := hselect }

/-! ## The other transitions -/

/-- The table of R52 meets the invariant, for any parameters and draws. -/
theorem afterReset_invariant (p : Params) (d : Nat) : Invariant (State.afterReset p d) where
  waiting_rising := .nil
  waiting_ports := fun w hw => by cases hw
  owner_port := fun r hr => by cases hr
  callback_pending := fun hc => by cases hc
  handler_enabled := rfl
  power_enabled := rfl
  period_positive := fun clk hclk => by cases hclk
  control_upper := (by decide : field 0 31 5 = 0)
  control_select := (by decide : field 0 3 2 ≤ 2)
  converted_current := fun n hn => by cases n <;> cases hn

theorem resetEvent_invariant (s : State) : Invariant (resetEvent s) :=
  { afterReset_invariant s.params s.draws with }

theorem grantStep_keeps_invariant {w : Nat} {s t : State} (h : Invariant s) (hg : grantStep w s = .next t) :
    Invariant t := by
  obtain ⟨-, hw, rfl⟩ := grantStep_next hg
  exact { h with
    waiting_rising := removeWaiter_rising h.waiting_rising
    waiting_ports := fun v hv => h.waiting_ports v (mem_removeWaiter.mp hv).1
    owner_port := fun r hr => by cases hr; exact h.waiting_ports w hw }

theorem completionStep_keeps_invariant {s : State} (h : Invariant s) : Invariant (completionStep s) := by
  obtain ⟨hupper, hselect⟩ := controlLegal_clearEnable ⟨h.control_upper, h.control_select⟩
  rw [completionStep_eq]
  exact { h with
    callback_pending := fun hc => by cases hc
    control_upper := hupper
    control_select := hselect }

end Sys2Proof.Machine
end

section
/-! The statements of the family 10_state.md: what every step keeps. -/

namespace Sys2Proof.Machine

/-- Settles O58. -/
theorem invariantAtReset : Obligations.InvariantAtReset :=
  afterReset_invariant defaultParams 0

/-- Settles O59: each way a step can end keeps the invariant. -/
theorem everyStepKeepsTheInvariant : Obligations.EveryStepKeepsTheInvariant := by
  intro s t h hstep
  rcases step_next hstep with ⟨-, rfl⟩ | ⟨u, ts, -, hturn⟩
  · exact h
  · have h' : Invariant { s with schedule := ts } := { h with }
    rcases hturn with ⟨r, i, s', -, hf, he⟩ | ⟨r, s', -, hf, rfl⟩ | ⟨w, -, hg⟩ | ⟨-, rfl⟩ | ⟨-, rfl⟩
    · obtain ⟨hport, -, rest, -, rfl⟩ := fetch_run hf
      exact exec_keeps_invariant (s := takePacket r rest { s with schedule := ts }) { h' with } hport he
    · obtain ⟨-, -, _, _, -, rfl⟩ := fetch_illegal hf
      exact { h' with }
    · exact grantStep_keeps_invariant h' hg
    · exact completionStep_keeps_invariant h'
    · exact resetEvent_invariant _

/-- Settles O10: an operation appends to the trace, and so do the answer to an illegal packet, a grant and a completion. -/
theorem stepsExtendTheTraceAndKeepParameters : Obligations.StepsExtendTheTraceAndKeepParameters := by
  intro s t hstep
  suffices hkeeps : t.params = s.params ∧ (s.schedule.head? ≠ some .reset → s.trace <+: t.trace) from
    ⟨hkeeps.1, fun hr => (hkeeps.2 hr).imp fun _ h => h.symm⟩
  rcases step_next hstep with ⟨-, rfl⟩ | ⟨u, ts, hs, hturn⟩
  · exact ⟨rfl, fun _ => ⟨[], List.append_nil _⟩⟩
  · rcases hturn with ⟨r, i, s', -, hf, he⟩ | ⟨r, s', -, hf, rfl⟩ | ⟨w, -, hg⟩ | ⟨-, rfl⟩ | ⟨rfl, rfl⟩
    · obtain ⟨-, -, rest, -, rfl⟩ := fetch_run hf
      have heff := exec_effect he
      exact ⟨heff.params_eq, fun _ => heff.trace_extends⟩
    · obtain ⟨-, -, _, _, -, rfl⟩ := fetch_illegal hf
      exact ⟨rfl, fun _ => ⟨_, rfl⟩⟩
    · obtain ⟨-, -, rfl⟩ := grantStep_next hg
      exact ⟨rfl, fun _ => ⟨_, rfl⟩⟩
    · rw [completionStep_eq]
      exact ⟨rfl, fun _ => by simp⟩
    · exact ⟨rfl, fun hr => absurd (by rw [hs]; rfl) hr⟩

end Sys2Proof.Machine
end

section
/-! The counts of a solution in the words it packs (spec/42_timing_solver.md R166 to R168, R180, R181). -/

namespace Sys2Proof.Machine

/-! ## Packing -/

/-- Or-ing a number above the bits already used adds it. -/
theorem toNat_or_shiftLeft {a : Word} {k x : Nat} (ha : a.toNat < 2 ^ k) (hx : x * 2 ^ k < 2 ^ 32) :
    (a ||| (BitVec.ofNat 32 x <<< k)).toNat = a.toNat + x * 2 ^ k := by
  have hx32 : x < 2 ^ 32 := lt_of_le_of_lt (Nat.le_mul_of_pos_right x (Nat.two_pow_pos k)) hx
  rw [BitVec.toNat_or, BitVec.toNat_shiftLeft, BitVec.toNat_ofNat, Nat.mod_eq_of_lt hx32, Nat.shiftLeft_eq,
    Nat.mod_eq_of_lt hx, Nat.lor_comm, Nat.mul_comm x, ← Nat.two_pow_add_eq_or_of_lt ha, Nat.add_comm]

/-- The bound of every count (R167), from the width check. -/
theorem fits_iff (t : Ten Nat) :
    fits t = true ↔ t.csOn ≤ 15 ∧ t.weOn ≤ 15 ∧ t.reOn ≤ 15 ∧ t.csOff ≤ 63 ∧ t.weOff ≤ 63 ∧ t.reOff ≤ 63
      ∧ t.access ≤ 63 ∧ t.weCycle ≤ 63 ∧ t.reCycle ≤ 63 ∧ t.csPulse ≤ 63 := by
  simp [fits, and_assoc]

/-- Word A as a sum of its fields in their places. -/
theorem packA_toNat {t : Ten Nat} (h : fits t = true) :
    (packA t).toNat = t.csOn + t.csOff * 2 ^ 4 + t.weOn * 2 ^ 10 + t.weOff * 2 ^ 14 + t.reOn * 2 ^ 20 + t.reOff * 2 ^ 24 := by
  obtain ⟨hcsOn, hweOn, hreOn, hcsOff, hweOff, hreOff, -⟩ := (fits_iff t).mp h
  have h0 : (BitVec.ofNat 32 t.csOn).toNat = t.csOn := by rw [BitVec.toNat_ofNat, Nat.mod_eq_of_lt (by omega)]
  have h1 := toNat_or_shiftLeft (a := BitVec.ofNat 32 t.csOn) (k := 4) (x := t.csOff) (by omega) (by omega)
  have h2 := toNat_or_shiftLeft (k := 10) (x := t.weOn) (h1.trans_lt (by omega)) (by omega)
  have h3 := toNat_or_shiftLeft (k := 14) (x := t.weOff) (h2.trans_lt (by omega)) (by omega)
  have h4 := toNat_or_shiftLeft (k := 20) (x := t.reOn) (h3.trans_lt (by omega)) (by omega)
  have h5 := toNat_or_shiftLeft (k := 24) (x := t.reOff) (h4.trans_lt (by omega)) (by omega)
  rw [packA, h5, h4, h3, h2, h1, h0]

/-- Word B as a sum of its fields in their places. -/
theorem packB_toNat {t : Ten Nat} (h : fits t = true) :
    (packB t).toNat = t.weCycle + t.reCycle * 2 ^ 6 + t.csPulse * 2 ^ 12 + t.access * 2 ^ 22 := by
  obtain ⟨-, -, -, -, -, -, haccess, hweCycle, hreCycle, hcsPulse⟩ := (fits_iff t).mp h
  have h0 : (BitVec.ofNat 32 t.weCycle).toNat = t.weCycle := by rw [BitVec.toNat_ofNat, Nat.mod_eq_of_lt (by omega)]
  have h1 := toNat_or_shiftLeft (a := BitVec.ofNat 32 t.weCycle) (k := 6) (x := t.reCycle) (by omega) (by omega)
  have h2 := toNat_or_shiftLeft (k := 12) (x := t.csPulse) (h1.trans_lt (by omega)) (by omega)
  have h3 := toNat_or_shiftLeft (k := 22) (x := t.access) (h2.trans_lt (by omega)) (by omega)
  rw [packB, h3, h2, h1, h0]

/-- Each field of Word A reads back its count (R92). -/
theorem packA_fields {t : Ten Nat} (h : fits t = true) :
    field (packA t) 3 0 = t.csOn ∧ field (packA t) 9 4 = t.csOff ∧ field (packA t) 13 10 = t.weOn
      ∧ field (packA t) 19 14 = t.weOff ∧ field (packA t) 23 20 = t.reOn ∧ field (packA t) 29 24 = t.reOff
      ∧ field (packA t) 31 30 = 0 := by
  obtain ⟨hcsOn, hweOn, hreOn, hcsOff, hweOff, hreOff, -⟩ := (fits_iff t).mp h
  simp only [field, packA_toNat h]
  omega

/-- Each field of Word B reads back its count (R93). -/
theorem packB_fields {t : Ten Nat} (h : fits t = true) :
    field (packB t) 5 0 = t.weCycle ∧ field (packB t) 11 6 = t.reCycle ∧ field (packB t) 17 12 = t.csPulse
      ∧ field (packB t) 27 22 = t.access ∧ field (packB t) 21 18 = 0 ∧ field (packB t) 31 28 = 0 := by
  obtain ⟨-, -, -, -, -, -, haccess, hweCycle, hreCycle, hcsPulse⟩ := (fits_iff t).mp h
  simp only [field, packB_toNat h]
  omega

/-! ## Ordering -/

theorem lt_bumpAbove (on off : Nat) : on < bumpAbove on off := by
  unfold bumpAbove
  split <;> omega

theorem le_raiseTo (floor x : Nat) : floor ≤ raiseTo floor x := by
  unfold raiseTo
  split <;> omega

theorem self_le_raiseTo (floor x : Nat) : x ≤ raiseTo floor x := by
  unfold raiseTo
  split <;> omega

/-- The words packed from adjusted counts that fit satisfy the ordering relations (R181). -/
theorem orderedWords_of_adjust {raw : Ten Nat} (h : fits (adjust raw) = true) :
    OrderedWords (packA (adjust raw)) (packB (adjust raw)) := by
  obtain ⟨hcsOn, hcsOff, hweOn, hweOff, hreOn, hreOff, -⟩ := packA_fields h
  obtain ⟨hweCycle, hreCycle, -, haccess, -, -⟩ := packB_fields h
  have hfloor : max (adjust raw).weOff (adjust raw).reOff ≤ (adjust raw).csOff := le_raiseTo _ _
  constructor
  case weOff_gt_weOn => rw [hweOn, hweOff]; exact lt_bumpAbove _ _
  case reOff_gt_reOn => rw [hreOn, hreOff]; exact lt_bumpAbove _ _
  case csOff_gt_csOn => rw [hcsOn, hcsOff]; exact lt_of_lt_of_le (lt_bumpAbove _ _) (self_le_raiseTo _ _)
  case csOff_ge_weOff => rw [hweOff, hcsOff]; exact le_trans (le_max_left _ _) hfloor
  case csOff_ge_reOff => rw [hreOff, hcsOff]; exact le_trans (le_max_right _ _) hfloor
  case access_gt_reOn => rw [hreOn, haccess]; exact lt_bumpAbove _ _
  case weCycle_ge_weOff => rw [hweOff, hweCycle]; exact le_raiseTo _ _
  case reCycle_ge_reOff => rw [hreOff, hreCycle]; exact le_raiseTo _ _

/-! ## Solutions -/

/-- A solution is packed from the adjusted counts at its divider, which is one the loop tried (R161, R167, R168). -/
theorem solve_some {req : TimingReq} {p k : Nat} {r : Solution} (h : solve req p k = some r) :
    1 ≤ r.div ∧ r.div ≤ k ∧ fits (adjustedAt (reqPs req) p r.div) = true
      ∧ r.wordA = packA (adjustedAt (reqPs req) p r.div) ∧ r.wordB = packB (adjustedAt (reqPs req) p r.div) := by
  obtain ⟨hlo, hhi, hat⟩ := solveFrom_some h
  obtain ⟨hfits, -, hA, hB, -⟩ := attempt_some hat
  exact ⟨hlo, by omega, hfits, hA, hB⟩

theorem solve_ordered {req : TimingReq} {p k : Nat} {r : Solution} (h : solve req p k = some r) :
    OrderedWords r.wordA r.wordB := by
  obtain ⟨-, -, hfits, hA, hB⟩ := solve_some h
  rw [hA, hB]
  exact orderedWords_of_adjust hfits

theorem solve_unusedZero {req : TimingReq} {p k : Nat} {r : Solution} (h : solve req p k = some r) :
    UnusedZero r.wordA r.wordB := by
  obtain ⟨-, -, hfits, hA, hB⟩ := solve_some h
  obtain ⟨-, -, -, -, -, -, htop⟩ := packA_fields hfits
  obtain ⟨-, -, -, -, hgap, htop'⟩ := packB_fields hfits
  rw [hA, hB]
  exact ⟨htop, hgap, htop'⟩

/-- Settles O60: a converted timing is the solution of what is loaded, and solutions are ordered. -/
theorem convertedTimingIsOrdered : Obligations.ConvertedTimingIsOrdered := by
  intro s n h hconv
  obtain ⟨clk, req, r, -, -, hsolve, hsolved⟩ := h.converted_current n hconv
  obtain ⟨hlo, hhi, -⟩ := solve_some hsolve
  have hdiv : r.div = 1 ∨ r.div = 2 := by
    have hhi : r.div ≤ 2 := hhi
    omega
  rw [hsolved]
  exact ⟨solve_ordered hsolve, solve_unusedZero hsolve, hdiv, rfl⟩

end Sys2Proof.Machine
end

section
/-! What ENABLE and a step do to CONTROL (spec/10_state.md R36). -/

namespace Sys2Proof.Machine

/-! ## ENABLE -/

/-- ENABLE reaches the formatter's writes: its power is granted, its handler is free, its format is accepted (R224, R225). -/
def EnableConfigures (fmt : BusFormat) (s : State) : Prop :=
  (envPower s).1 = true ∧ s.handlerRegistered = false
    ∧ ∃ w, formatWords s.params.layout fmt.depth.toNat fmt.lines.toNat = .ok w

/-- The state in which ENABLE has its power, before it looks at the handler (R224, step 1). -/
def powerHeld (s : State) : State := { (acquirePower s).2 with powerRefs := (acquirePower s).2.powerRefs + 1 }

@[simp] theorem acquirePower_regs (s : State) : (acquirePower s).2.regs = s.regs := by
  obtain ⟨ok, oks, d, hp⟩ := envPower_frame s
  simp [acquirePower, hp]

@[simp] theorem powerHeld_regs (s : State) : (powerHeld s).regs = s.regs := acquirePower_regs s

@[simp] theorem powerHeld_params (s : State) : (powerHeld s).params = s.params := by
  obtain ⟨ok, oks, d, hp⟩ := envPower_frame s
  simp [powerHeld, acquirePower, hp]

@[simp] theorem powerHeld_handlerRegistered (s : State) : (powerHeld s).handlerRegistered = s.handlerRegistered := by
  obtain ⟨ok, oks, d, hp⟩ := envPower_frame s
  simp [powerHeld, acquirePower, hp]

section
variable (n : Channel) (fmt : BusFormat) (req : TimingReq) (clk : ClockContext) {s : State}

theorem enableBody_power_refused (hpower : (envPower s).1 = false) :
    enableBody n fmt req clk s = .next (respond .powerResourceUnavailable [] (acquirePower s).2) := by
  simp [enableBody, acquirePower, hpower, finish]

theorem enableBody_power_granted (hpower : (envPower s).1 = true) :
    enableBody n fmt req clk s =
      if s.handlerRegistered then finish .handlerRegistrationFailed (releasePower (powerHeld s))
      else enableChannel n fmt req clk (registerHandler (powerHeld s)) := by
  rw [← powerHeld_handlerRegistered s]
  exact if_pos hpower

theorem enableBody_handler_taken (hpower : (envPower s).1 = true) (hhandler : s.handlerRegistered = true) :
    enableBody n fmt req clk s
      = .next (respond .handlerRegistrationFailed [] (releasePower (powerHeld s))) := by
  rw [enableBody_power_granted n fmt req clk hpower, if_pos hhandler, finish]

theorem enableBody_handler_free (hpower : (envPower s).1 = true) (hhandler : s.handlerRegistered = false) :
    enableBody n fmt req clk s = enableChannel n fmt req clk (registerHandler (powerHeld s)) := by
  rw [enableBody_power_granted n fmt req clk hpower, hhandler]
  rfl

end

theorem envPower_of_answer {s : State} {ok : Bool} {oks : List Bool} (h : s.powerAnswers = ok :: oks) :
    (envPower s).1 = ok := by
  simp [envPower, h]

/-- From the formatter on, ENABLE leaves CONTROL reselected if the format is accepted, and alone if not, whatever the solver
then answers. -/
theorem enableChannel_control (n : Channel) (fmt : BusFormat) (req : TimingReq) (clk : ClockContext) (s : State) :
    ∃ t, enableChannel n fmt req clk s = .next t
      ∧ ((∃ w, formatWords s.params.layout fmt.depth.toNat fmt.lines.toNat = .ok w)
          ∧ t.regs.control = controlSelected (setField s.regs.control 3 2 0) n
        ∨ (∃ e, formatWords s.params.layout fmt.depth.toNat fmt.lines.toNat = .error e)
          ∧ t.regs.control = s.regs.control) := by
  unfold enableChannel
  rcases configureBody_cases n fmt.depth fmt.lines s with ⟨e, hw, hb⟩ | ⟨w, hw, hb⟩ <;> rw [hb]
  · exact ⟨_, rfl, .inr ⟨⟨e, hw⟩, rfl⟩⟩
  · dsimp only
    rcases solveBody_cases n req clk (writeFormat n w s) with ⟨-, hs⟩ | ⟨r, -, hs⟩ <;> rw [hs]
    · exact ⟨_, rfl, .inl ⟨⟨w, hw⟩, by simp [rollback, writeFormat_eq]⟩⟩
    · exact ⟨_, rfl, .inl ⟨⟨w, hw⟩, by simp [writeTiming_eq, writeFormat_eq]⟩⟩

/-- ENABLE by the holder with its parameters loaded reselects CONTROL exactly when it reaches the formatter's writes. -/
theorem enable_control {n : Channel} {clk : ClockContext} {fmt : BusFormat} {req : TimingReq} {s : State}
    (ho : s.issuerHolds) (hc : s.clk = some clk) (hf : s.fmt.get n = some fmt) (hr : s.req.get n = some req) :
    ∃ t, exec (.enable n) s = .next t
      ∧ (EnableConfigures fmt s ∧ t.regs.control = controlSelected (setField s.regs.control 3 2 0) n
        ∨ ¬ EnableConfigures fmt s ∧ t.regs.control = s.regs.control) := by
  have hexec : exec (.enable n) s = enableBody n fmt req clk s := by
    simp only [exec, execEnable]
    rw [withLock_holder ho, hc, hf, hr]
  rw [hexec]
  cases hpower : (envPower s).1 with
  | false =>
    have hno : ¬ EnableConfigures fmt s := fun ⟨h, _⟩ => by rw [hpower] at h; cases h
    exact ⟨_, enableBody_power_refused n fmt req clk hpower, .inr ⟨hno, by simp⟩⟩
  | true =>
    cases hhandler : s.handlerRegistered with
    | true =>
      have hno : ¬ EnableConfigures fmt s := fun ⟨_, h, _⟩ => by rw [hhandler] at h; cases h
      exact ⟨_, enableBody_handler_taken n fmt req clk hpower hhandler, .inr ⟨hno, by simp⟩⟩
    | false =>
      rw [enableBody_handler_free n fmt req clk hpower hhandler]
      obtain ⟨t, ht, hcontrol⟩ := enableChannel_control n fmt req clk (registerHandler (powerHeld s))
      rw [registerHandler_params, registerHandler_regs, powerHeld_params, powerHeld_regs] at hcontrol
      refine ⟨t, ht, ?_⟩
      rcases hcontrol with ⟨hw, hcontrol⟩ | ⟨⟨e, he⟩, hcontrol⟩
      · exact .inl ⟨⟨hpower, hhandler, hw⟩, hcontrol⟩
      · exact .inr ⟨fun ⟨_, _, w, hw⟩ => (by rw [he] at hw; cases hw), hcontrol⟩

/-! ## CONFIGURE and XFER -/

theorem configure_control {n : Channel} {depth lines : Byte} {w : FormatWords} {s : State} (ho : s.issuerHolds)
    (hw : formatWords s.params.layout depth.toNat lines.toNat = .ok w) :
    ∃ t, exec (.configure n depth lines) s = .next t
      ∧ t.regs.control = controlSelected (setField s.regs.control 3 2 0) n := by
  refine ⟨respond .ok [] (writeFormat n w s), ?_, by simp [writeFormat_eq]⟩
  simp only [exec, execConfigure]
  rw [withLock_holder ho, configureBody, hw]
  rfl

theorem xfer_control {width height : Half} {callback : Option Callback} {s : State} (ho : s.issuerHolds)
    (hp : s.xferPending = false) :
    ∃ t, exec (.xfer width height callback) s = .next t
      ∧ t.regs.control = controlStarted s.regs.control s.teActive := by
  refine ⟨respond .ok [] (setXferPending true { writeTransfer width height s with pendingCb := callback }), ?_,
    by simp [writeTransfer_eq]⟩
  simp only [exec, execXfer]
  rw [withLock_holder ho, hp]
  rfl

/-! ## A step -/

/-- A fetch of the scheduled requester that finds an operation serves it. -/
theorem serves_of_fetch {r : Nat} {ts : List Turn} {i : Instr} {s u : State} (hs : s.schedule = .serve r :: ts)
    (hf : fetch r { s with schedule := ts } = .run i u) : Serves s r i u := by
  obtain ⟨hport, hwaits, rest, hdecode, rfl⟩ := fetch_run hf
  exact ⟨ts, rest, hs, hport, hwaits, hdecode, rfl⟩

/-- A step that changes CONTROL is a FRAME_DONE, a reset, or a CONFIGURE, ENABLE or XFER of the holder. -/
theorem step_control_changed {s t : State} (hstep : step s = .next t) (hne : t.regs.control ≠ s.regs.control) :
    s.schedule.head? = some .frameDone ∨ s.schedule.head? = some .reset
      ∨ ∃ r i u, Serves s r i u ∧ s.owner = some r
          ∧ ((∃ n depth lines, i = .configure n depth lines) ∨ (∃ n, i = .enable n)
            ∨ (∃ width height callback, i = .xfer width height callback)) := by
  rcases step_next hstep with ⟨-, rfl⟩ | ⟨u, ts, hs, hturn⟩
  · exact absurd rfl hne
  · rcases hturn with ⟨r, i, s', rfl, hf, he⟩ | ⟨r, s', -, hf, rfl⟩ | ⟨w, -, hg⟩ | ⟨rfl, -⟩ | ⟨rfl, -⟩
    · have hserves := serves_of_fetch hs hf
      obtain ⟨-, -, rest, -, rfl⟩ := fetch_run hf
      rcases exec_control he with hc | ⟨ho, hi⟩
      · exact absurd hc hne
      · refine .inr (.inr ⟨r, i, _, hserves, ho, ?_⟩)
        rcases hi with ⟨n, depth, lines, hi, -⟩ | ⟨n, hi, -⟩ | ⟨width, height, callback, hi, -⟩
        · exact .inl ⟨n, depth, lines, hi⟩
        · exact .inr (.inl ⟨n, hi⟩)
        · exact .inr (.inr ⟨width, height, callback, hi⟩)
    · obtain ⟨-, -, _, _, -, rfl⟩ := fetch_illegal hf
      exact absurd rfl hne
    · obtain ⟨-, -, rfl⟩ := grantStep_next hg
      exact absurd rfl hne
    · exact .inl (by rw [hs]; rfl)
    · exact .inr (.inl (by rw [hs]; rfl))

/-- What the formatter's writes leave in CONTROL: the channel selected, BYPASS 0, every other bit as it was. -/
theorem reselected_bits (v : Word) (n : Channel) :
    field (controlSelected (setField v 3 2 0) n) 3 2 = n.num + 1
      ∧ (controlSelected (setField v 3 2 0) n).getLsbD 1 = false
      ∧ ∀ i, i ≠ 1 → i ≠ 2 → i ≠ 3 → (controlSelected (setField v 3 2 0) n).getLsbD i = v.getLsbD i :=
  ⟨controlSelected_select _ n, controlSelected_bypass _ n, fun _ h1 h2 h3 => reselect_other_bits v n h1 h2 h3⟩

/-- What XFER's write leaves in CONTROL: ENABLE set, ITE set unless tear elimination is active, every other bit as it was. -/
theorem started_bits (v : Word) (te : Bool) :
    (controlStarted v te).getLsbD 0 = true ∧ (controlStarted v te).getLsbD 4 = (v.getLsbD 4 || !te)
      ∧ ∀ i, i ≠ 0 → i ≠ 4 → (controlStarted v te).getLsbD i = v.getLsbD i :=
  ⟨by rw [controlStarted_getLsbD]; simp, by rw [controlStarted_getLsbD]; simp,
    fun _ h0 h4 => controlStarted_other_bits v te h0 h4⟩

/-- Settles O29: the value each operation leaves in CONTROL, and the bits of that value. -/
theorem controlBitByBit : Obligations.ControlBitByBit := by
  refine ⟨?configure, ?enable, ?xfer, ?frameDone, fun s t => step_control_changed, ?selected, started_bits, ?cleared⟩
  case configure =>
    intro n depth lines w s ho hw
    obtain ⟨t, ht, hcontrol⟩ := configure_control (n := n) ho hw
    rw [ht]
    exact ⟨t, rfl, hcontrol ▸ reselected_bits s.regs.control n⟩
  case enable =>
    intro n clk fmt req s ho hc hf hr
    obtain ⟨t, ht, ⟨hyes, hcontrol⟩ | ⟨hno, hcontrol⟩⟩ := enable_control ho hc hf hr
    · refine ⟨t, ht, ?_⟩
      rw [hcontrol]
      have hbits := reselected_bits s.regs.control n
      refine ⟨.inr hbits, fun _ _ _ _ _ => hbits, ?_⟩
      obtain ⟨hpower, hhandler, w, hw⟩ := hyes
      rintro (⟨oks, hans⟩ | hreg | ⟨e, he⟩)
      · rw [envPower_of_answer hans] at hpower
        cases hpower
      · rw [hhandler] at hreg
        cases hreg
      · rw [hw] at he
        cases he
    · exact ⟨t, ht, .inl hcontrol,
        fun oks w hans hhandler hw => absurd ⟨envPower_of_answer hans, hhandler, w, hw⟩ hno, fun _ => hcontrol⟩
  case xfer =>
    intro width height callback s ho hp
    obtain ⟨t, ht, hcontrol⟩ := xfer_control (width := width) (height := height) (callback := callback) ho hp
    rw [ht]
    exact ⟨t, rfl, hcontrol ▸ started_bits s.regs.control s.teActive⟩
  case frameDone =>
    intro s ts hs
    have hstep : step s = .next (completionStep { s with schedule := ts }) := by simp [step, hs, turn]
    refine ⟨_, hstep, ?_⟩
    rw [completionStep_eq]
    exact ⟨clearEnable_bit _, fun i hi => clearEnable_other_bits _ hi⟩
  case selected =>
    intro v n
    exact ⟨deselect_select v, fun i h2 h3 => deselect_other_bits v h2 h3, reselected_bits v n⟩
  case cleared =>
    intro v
    exact ⟨clearEnable_bit v, fun i hi => clearEnable_other_bits v hi⟩

end Sys2Proof.Machine
end

section
/-! The address map: which offsets hold a register, and which of them store a word (spec/20_memory.md R62 to R67). -/

namespace Sys2Proof.Machine

/-- The map lists every register. -/
theorem mem_allRegs (r : Reg) : r ∈ allRegs := List.mem_of_find?_eq_some (ofOffset_offset r)

/-- Where the map puts registers: REVISION at 0, the rest at multiples of 4 from 0x040 to 0x08c, with the two gaps 0x048 and
0x05c (R61, R64). -/
theorem offset_bounds (r : Reg) :
    r.offset % 4 = 0 ∧ (r.offset = 0x000 ∨ 0x040 ≤ r.offset) ∧ r.offset ≠ 0x048 ∧ r.offset ≠ 0x05c ∧ r.offset < 0x090 := by
  have hall : ∀ r ∈ allRegs, r.offset % 4 = 0 ∧ (r.offset = 0x000 ∨ 0x040 ≤ r.offset) ∧ r.offset ≠ 0x048
      ∧ r.offset ≠ 0x05c ∧ r.offset < 0x090 := by decide
  exact hall r (mem_allRegs r)

theorem offset_of_ofOffset {off : Nat} {r : Reg} (h : Reg.ofOffset off = some r) : r.offset = off := by
  simpa using List.find?_some h

theorem ofOffset_eq_none {off : Nat} (h : ∀ r : Reg, r.offset ≠ off) : Reg.ofOffset off = none :=
  Option.eq_none_iff_forall_ne_some.mpr fun r hr => h r (offset_of_ofOffset hr)

/-- The registers that store nothing are REVISION and the four ports (R67). -/
theorem offset_mem_storeless_iff (r : Reg) : r.offset ∈ [0x000, 0x04c, 0x050, 0x054, 0x058] ↔ r.stores = false := by
  have hall : ∀ r ∈ allRegs, r.offset ∈ [0x000, 0x04c, 0x050, 0x054, 0x058] ↔ r.stores = false := by decide
  exact hall r (mem_allRegs r)

/-- All a write by offset can do: it writes the register the map lists there. -/
theorem regWriteAt_ok {off : Nat} {v : Word} {s t : State} (h : regWriteAt off v s = .ok t) :
    ∃ r : Reg, r.offset = off ∧ t = regWrite r v s := by
  unfold regWriteAt at h
  split at h
  · next r hr => cases h; exact ⟨r, offset_of_ofOffset hr, rfl⟩
  · cases h

end Sys2Proof.Machine
end

section
/-! Which registers the block itself accesses: every operation and every completion emits register events only for registers
of the map other than REVISION and PARAM (spec/20_memory.md R63, R64, spec/43_transfer_engine.md R197). -/

namespace Sys2Proof.Machine

/-- The registers the block's own operations may access: not REVISION, not PARAM (R63, R197). -/
abbrev Reg.Accessed (r : Reg) : Prop := r ≠ .revision ∧ r ≠ .param

/-- If the event is a register access, it is at an offset of the map that is neither REVISION's nor PARAM's. -/
def Event.InTable : Event → Prop
  | .regW off _ => ∃ r, Reg.ofOffset off = some r ∧ r.Accessed
  | .regR off _ => ∃ r, Reg.ofOffset off = some r ∧ r.Accessed
  | _ => True

/-- `t`'s trace is `s`'s with events appended whose register accesses are all in the table. -/
def EmitsInTable (s t : State) : Prop := ∃ es, t.trace = s.trace ++ es ∧ ∀ e ∈ es, e.InTable

namespace EmitsInTable

theorem refl (s : State) : EmitsInTable s s := ⟨[], by simp, by simp⟩

section
variable {s t : State} (h : EmitsInTable s t)
include h

theorem of_trace_eq {u : State} (hu : u.trace = t.trace) : EmitsInTable s u := by
  rwa [EmitsInTable, hu]

theorem trans {u : State} (hu : EmitsInTable t u) : EmitsInTable s u := by
  obtain ⟨es, ht, hes⟩ := h
  obtain ⟨fs, hu, hfs⟩ := hu
  exact ⟨es ++ fs, by simp [hu, ht], fun e he => (List.mem_append.mp he).elim (hes e) (hfs e)⟩

theorem emit {e : Event} (he : e.InTable) : EmitsInTable s (emit e t) :=
  h.trans ⟨[e], rfl, by simpa using he⟩

theorem respond (status : Status) (bytes : List Byte) : EmitsInTable s (respond status bytes t) :=
  h.emit (e := .resp t.issuer status bytes) trivial

theorem takePacket (r : Nat) (rest : List Word) : EmitsInTable s (takePacket r rest t) := h.of_trace_eq rfl

/-! ### The register primitives -/

theorem regWrite (r : Reg) (v : Word) (hr : r.Accessed := by simp [Reg.Accessed]) : EmitsInTable s (regWrite r v t) :=
  emit (t := { t with regs := t.regs.store r v }) (h.of_trace_eq rfl) (e := .regW r.offset v) ⟨r, ofOffset_offset r, hr⟩

/-- Drawing or asking for the value read emits nothing. -/
theorem regValue (r : Reg) : EmitsInTable s (regValue r t).2 := by
  refine h.of_trace_eq ?_
  cases r with
  | read => simp only [Machine.regValue, envRead]; split <;> rfl
  | _ => rfl

theorem regRead (r : Reg) (hr : r.Accessed := by simp [Reg.Accessed]) : EmitsInTable s (regRead r t).2 :=
  (h.regValue r).emit (e := .regR r.offset _) ⟨r, ofOffset_offset r, hr⟩

theorem regMod (r : Reg) (hi lo : Nat) (f : Word) (hr : r.Accessed := by simp [Reg.Accessed]) :
    EmitsInTable s (regMod r hi lo f t) :=
  (h.regRead r hr).regWrite r _ hr

/-! ### The accesses of each operation, in their order -/

theorem writeFormat (n : Channel) (w : FormatWords) : EmitsInTable s (writeFormat n w t) := by
  have h1 := h.regMod .control 3 2 0
  have h2 := h1.regWrite (.config n) w.config
  have h3 := h2.regWrite (.dataCycle1 n) w.cycle1
  have h4 := h3.regWrite (.dataCycle2 n) w.cycle2
  have h5 := h4.regWrite (.dataCycle3 n) w.cycle3
  have h6 := h5.regRead .control
  exact (h6.regWrite .control _).of_trace_eq rfl

theorem writeTiming (n : Channel) (timing : SolvedTiming) : EmitsInTable s (writeTiming n timing t) := by
  have h1 := h.regWrite (.onoffTime n) timing.wordA
  have h2 := h1.regWrite (.cycleTime n) timing.wordB
  exact h2.regMod (.config n) _ _ _

theorem writeUnits {r : Reg} (hr : r.Accessed) (ws : List Word) : EmitsInTable s (writeUnits r ws t) := by
  induction ws generalizing t with
  | nil => exact h
  | cons w ws ih => exact ih (h.regWrite r w hr)

theorem readUnit : EmitsInTable s (readUnit t).2 := (h.regWrite .read 0).regRead .read

theorem readUnits (u : UnitSize) (k : Nat) : EmitsInTable s (readUnits u k t).2 := by
  induction k generalizing t with
  | zero => exact h
  | succ k ih => exact ih h.readUnit

theorem writeTransfer (width height : Half) : EmitsInTable s (writeTransfer width height t) := by
  have h1 := h.regWrite .pixelCnt (BitVec.ofNat 32 (width.toNat * height.toNat))
  have h2 := h1.regRead .control
  exact h2.regWrite .control _

theorem completionStep : EmitsInTable s (completionStep t) := by
  have hclear := h.regMod .control 0 0 0
  unfold Machine.completionStep emitCallback
  split
  · exact emit (hclear.of_trace_eq rfl) trivial
  · exact hclear.of_trace_eq rfl

theorem releasePower : EmitsInTable s (releasePower t) :=
  emit (t := { t with powerRefs := t.powerRefs - 1 }) (h.of_trace_eq rfl) (e := .powerRelease) trivial

theorem registerHandler : EmitsInTable s (registerHandler t) :=
  emit (t := setHandlerRegistered true t) (h.of_trace_eq rfl) (e := .handlerRegister) trivial

theorem unregisterHandler : EmitsInTable s (unregisterHandler t) :=
  emit (t := setHandlerRegistered false t) (h.of_trace_eq rfl) (e := .handlerUnregister) trivial

theorem powerHeld : EmitsInTable s (powerHeld t) := by
  obtain ⟨ok, oks, d, hp⟩ := envPower_frame t
  refine of_trace_eq (h.emit (e := .powerAcquire ok) trivial) ?_
  simp [Machine.powerHeld, acquirePower, hp]

theorem teardown : EmitsInTable s (teardown t) := by
  have hmanager := h.emit (e := .mgrDisable) trivial
  refine of_trace_eq (u := setEnabled false _) ?_ rfl
  split <;> split
  · exact hmanager.unregisterHandler.releasePower
  · exact hmanager.unregisterHandler
  · exact hmanager.releasePower
  · exact hmanager

end

/-! ### ENABLE from the formatter on, and whole (spec/44_bus_controller.md R224, R225) -/

section
variable {n : Channel} {fmt : BusFormat} {req : TimingReq} {clk : ClockContext} {s t u : State}

theorem enableChannel (h : EmitsInTable s t) (hu : enableChannel n fmt req clk t = .next u) : EmitsInTable s u := by
  unfold Machine.enableChannel at hu
  rcases configureBody_cases n fmt.depth fmt.lines t with ⟨e, -, hc⟩ | ⟨w, -, hc⟩ <;> rw [hc] at hu <;> dsimp only at hu
  · cases finish_next hu
    exact h.unregisterHandler.releasePower.respond e []
  · have hformat := h.writeFormat n w
    rcases solveBody_cases n req clk (Machine.writeFormat n w t) with ⟨-, hs⟩ | ⟨r, -, hs⟩ <;>
      rw [hs] at hu <;> cases finish_next hu
    · have hclear := of_trace_eq (u := clearConverted n _) hformat rfl
      exact hclear.unregisterHandler.releasePower.respond .timingUnsatisfiable []
    · have hsolved := of_trace_eq hformat (u := { Machine.writeFormat n w t with solved := _ }) rfl
      have htimings := (hsolved.writeTiming n (solvedOf r)).emit (e := .mgrSetTimings n) trivial
      exact respond (t := setEnabled true _) (htimings.of_trace_eq rfl) .ok []

theorem enableBody (h : EmitsInTable s t) (hu : enableBody n fmt req clk t = .next u) : EmitsInTable s u := by
  cases hpower : (envPower t).1 with
  | false =>
    rw [enableBody_power_refused n fmt req clk hpower] at hu
    cases hu
    exact respond (of_trace_eq h.powerHeld rfl) .powerResourceUnavailable []
  | true =>
    cases hhandler : t.handlerRegistered with
    | true =>
      rw [enableBody_handler_taken n fmt req clk hpower hhandler] at hu
      cases hu
      exact h.powerHeld.releasePower.respond .handlerRegistrationFailed []
    | false =>
      rw [enableBody_handler_free n fmt req clk hpower hhandler] at hu
      exact h.powerHeld.registerHandler.enableChannel hu

end

/-! ### The checks before a body -/

theorem withLock {body : State → Result} {s t : State} (hbody : body s = .next t → EmitsInTable s t)
    (h : withLock body s = .next t) : EmitsInTable s t := by
  rcases withLock_next h with ⟨-, hb⟩ | ⟨-, rfl⟩
  · exact hbody hb
  · exact of_trace_eq (refl s) rfl

theorem withStream {len : Nat} {body : UnitSize → State → Result} {s t : State}
    (hbody : ∀ u, body u s = .next t → EmitsInTable s t) (h : withStream len body s = .next t) : EmitsInTable s t := by
  rcases withStream_next h with ⟨-, rfl⟩ | ⟨-, e, -, rfl⟩ | ⟨-, u, -, hb⟩
  · exact of_trace_eq (refl s) rfl
  · exact (refl s).respond e []
  · exact hbody u hb

end EmitsInTable

/-- Every operation keeps its register accesses in the table. -/
theorem exec_emitsInTable {i : Instr} {s t : State} (h : exec i s = .next t) : EmitsInTable s t := by
  have hs := EmitsInTable.refl s
  cases i <;> simp only [exec] at h
  case lock =>
    unfold execLock at h
    split at h <;> cases h
    · exact .respond (hs.of_trace_eq rfl) .ok []
    · exact hs.of_trace_eq rfl
  case unlock =>
    unfold execUnlock at h
    split at h <;> cases h
    · exact .respond (hs.of_trace_eq rfl) .ok []
    · exact hs.respond .ok []
  case enable n =>
    refine .withLock (fun hb => ?_) h
    split at hb
    · exact hs.enableBody hb
    · cases hb
  case disable =>
    refine .withLock (fun hb => ?_) h
    cases hb
    exact hs.teardown.respond .ok []
  case setclk rate =>
    unfold execSetclk at h
    split at h <;> cases h
    exact .respond (hs.of_trace_eq rfl) .ok []
  case setreq => cases h; exact .respond (hs.of_trace_eq rfl) .ok []
  case setfmt => cases h; exact .respond (hs.of_trace_eq rfl) .ok []
  case sette => cases h; exact .respond (hs.of_trace_eq rfl) .ok []
  case configure n depth lines =>
    refine .withLock (fun hb => ?_) h
    rcases configureBody_cases n depth lines s with ⟨e, -, hc⟩ | ⟨w, -, hc⟩ <;> rw [hc] at hb <;> cases hb
    · exact hs.respond e []
    · exact (hs.writeFormat n w).respond .ok []
  case solve n =>
    refine .withLock (fun hb => ?_) h
    split at hb
    · next clk req _ _ =>
      rcases solveBody_cases n req clk s with ⟨-, he⟩ | ⟨r, -, he⟩ <;> rw [he] at hb <;> cases hb
      · exact .respond (hs.of_trace_eq rfl) .timingUnsatisfiable []
      · exact ((hs.of_trace_eq rfl).writeTiming n (solvedOf r)).respond .ok []
    · cases hb
  case wrcmd bytes =>
    refine .withStream (fun u hb => ?_) h
    cases hb
    exact (hs.writeUnits (by simp [Reg.Accessed]) _).respond .ok []
  case wrdata bytes =>
    refine .withStream (fun u hb => ?_) h
    cases hb
    exact (hs.writeUnits (by simp [Reg.Accessed]) _).respond .ok []
  case rddata len =>
    refine .withStream (fun u hb => ?_) h
    cases hb
    exact (hs.readUnits u _).respond .ok _
  case xfer width height callback =>
    refine .withLock (fun hb => ?_) h
    split at hb <;> cases hb
    · exact hs.respond .transferAlreadyPending []
    · exact .respond (.of_trace_eq (hs.writeTransfer width height) rfl) .ok []

/-- Every step but a reset keeps its register accesses in the table. -/
theorem step_emitsInTable {s t : State} (hstep : step s = .next t) (hr : s.schedule.head? ≠ some .reset) :
    EmitsInTable s t := by
  rcases step_next hstep with ⟨-, rfl⟩ | ⟨u, ts, hs, hturn⟩
  · exact .refl t
  · have hstart : EmitsInTable s { s with schedule := ts } := .of_trace_eq (.refl s) rfl
    rcases hturn with ⟨r, i, s', -, hf, he⟩ | ⟨r, s', -, hf, rfl⟩ | ⟨w, -, hg⟩ | ⟨-, rfl⟩ | ⟨rfl, -⟩
    · obtain ⟨-, -, rest, -, rfl⟩ := fetch_run hf
      exact (hstart.takePacket r rest).trans (exec_emitsInTable he)
    · obtain ⟨-, -, _, rest, -, rfl⟩ := fetch_illegal hf
      exact (hstart.takePacket r rest).respond .illegalCommand []
    · obtain ⟨-, -, rfl⟩ := grantStep_next hg
      exact ⟨[.resp w .ok []], rfl, by simp [Event.InTable]⟩
    · exact hstart.completionStep
    · exact absurd (by rw [hs]; rfl) hr

end Sys2Proof.Machine
end

section
/-! A turn that serves a requester (spec/20_memory.md R74, R75). -/

namespace Sys2Proof.Machine

/-- A requester of the instance that waits for nothing and presents an operation has it fetched. -/
theorem fetch_eq_run {r : Nat} {s : State} {i : Instr} {rest : List Word} (hport : r < s.params.nReq)
    (hwaiting : r ∉ s.waiting) (hdecode : decode (s.portWords r) = .instr i rest) :
    fetch r s = .run i (takePacket r rest s) := by
  rw [fetch, if_neg (Nat.not_le.mpr hport), if_neg hwaiting, hdecode]

theorem step_of_schedule {s : State} {u : Turn} {ts : List Turn} (h : s.schedule = u :: ts) :
    step s = turn u { s with schedule := ts } := by
  rw [step, h]

end Sys2Proof.Machine
end

section
/-! The statements of the family 20_memory.md: the address map, the register primitives, and what a step accesses. -/

namespace Sys2Proof.Machine

/-- Settles O55: no register of the map lies at such an offset. -/
theorem unlistedOffsetsRefused : Obligations.UnlistedOffsetsRefused := by
  intro off v s hoff
  have hnone : Reg.ofOffset off = none := ofOffset_eq_none fun r hr => by
    have hbounds := offset_bounds r
    rw [hr] at hbounds
    omega
  exact ⟨by simp [regReadAt, hnone], by simp [regWriteAt, hnone]⟩

/-- Settles O56: the two offsets are two different registers, and a write leaves every other storage register alone. -/
theorem registersReadTheLastWrite : Obligations.RegistersReadTheLastWrite := by
  intro off off' v v' s t t' hwrite hne hwrite'
  obtain ⟨r, rfl, rfl⟩ := regWriteAt_ok hwrite
  obtain ⟨r', rfl, rfl⟩ := regWriteAt_ok hwrite'
  refine ⟨by simp, fun hmem => ?storeless, fun hmem => ?storage, fun hzero => ?revision⟩
  case storeless =>
    exact store_of_not_stores ((offset_mem_storeless_iff r).mp hmem) s.regs v
  case storage =>
    have hstores : r.stores = true := by simpa only [offset_mem_storeless_iff, Bool.not_eq_false] using hmem
    have hother : r ≠ r' := fun h => hne (congrArg Reg.offset h.symm)
    have hvalue : (regValue r (regWrite r' v' (regWrite r v s))).1 = v := by
      rw [regValue_regWrite_other hstores hother, regValue_regWrite_same hstores]
    rw [regReadAt_offset, regRead_storage hstores, hvalue]
    rfl
  case revision =>
    rw [hzero]
    rfl

/-- Settles O57. -/
theorem noAccessOutsideTheTable : Obligations.NoAccessOutsideTheTable := by
  intro s t es off v hstep hr htrace hmem
  obtain ⟨es', htrace', hes⟩ := step_emitsInTable hstep hr
  obtain rfl : es = es' := List.append_cancel_left (htrace.symm.trans htrace')
  exact hmem.elim (hes _) (hes _)

/-- Settles O7. -/
theorem stepRunsDecodedOperation : Obligations.StepRunsDecodedOperation := by
  rintro s u r i ⟨ts, rest, hschedule, hport, hwaiting, hdecode, rfl⟩
  have hfetch : fetch r { s with schedule := ts } = .run i (takePacket r rest { s with schedule := ts }) :=
    fetch_eq_run hport hwaiting hdecode
  rw [step_of_schedule hschedule, turn, serve, hfetch]
  rfl

/-- Settles O54. -/
theorem channelOffsets : Obligations.ChannelOffsets :=
  ⟨fun _ => ⟨rfl, rfl, rfl, rfl, rfl, rfl⟩, fun r =>
    have ⟨haligned, _, _, _, hlt⟩ := offset_bounds r
    ⟨haligned, hlt⟩⟩

end Sys2Proof.Machine
end

section
/-! The rows of the opcode table by the fields of a header, and the headers that match each (spec/30_encoding.md R101, R103,
R109). -/

namespace Sys2Proof

/-! ## Rows -/

/-- The row of R103 with the given fields. -/
def FieldRow.row (e : FieldRow) : OpRow := ⟨e.op, header e.opc 0 0, header 0xFF e.chMask e.argMask ||| 0x00FE0000#32⟩

theorem opTable_eq_rows : opTable = fieldTable.map FieldRow.row := opTable_eq_fields

/-- A header with the row's OPC, RSV zero, and no bit of CH or ARG set that the row fixes to zero. -/
def FieldRow.Matches (e : FieldRow) (h : Word) : Prop :=
  ∃ ch arg, h = header e.opc ch arg ∧ ch &&& e.chMask = 0 ∧ arg &&& e.argMask = 0

theorem rsvMask_getLsbD (i : Nat) : (0x00FE0000#32).getLsbD i = decide (17 ≤ i ∧ i < 24) := by
  have hlow : ∀ i < 32, (0x00FE0000#32).getLsbD i = decide (17 ≤ i ∧ i < 24) := by decide
  by_cases h : i < 32
  · exact hlow i h
  · rw [BitVec.getLsbD_of_ge _ _ (by omega), eq_comm, decide_eq_false_iff_not]
    omega

/-- A word with RSV zero is made of its other three fields. -/
theorem header_of_fields {h : Word} (hrsv : ∀ i, 17 ≤ i → i < 24 → h.getLsbD i = false) :
    header (h.extractLsb' 24 8) (h.extractLsb' 16 1) (headerArg h) = h := by
  apply BitVec.eq_of_getLsbD_eq
  intro i hi
  rw [header_getLsbD]
  split_ifs with harg hch hr
  · simp [headerArg, harg]
  · obtain rfl : i = 16 := by omega
    simp
  · exact (hrsv i (by omega) hr).symm
  · simp [show i - 24 < 8 by omega, show 24 + (i - 24) = i by omega]

theorem FieldRow.matches_iff (e : FieldRow) (h : Word) : h &&& e.row.mask = e.row.pattern ↔ e.Matches h := by
  constructor
  · intro hmask
    have hrsv : ∀ i, 17 ≤ i → i < 24 → h.getLsbD i = false := fun i hlo hhi => by
      have hbit := congrArg (BitVec.getLsbD · i) hmask
      simpa [FieldRow.row, header_getLsbD, rsvMask_getLsbD, hlo, hhi, show ¬ i < 16 by omega, show ¬ i < 17 by omega]
        using hbit
    have hfields := header_of_fields hrsv
    rw [← hfields, FieldRow.row, header_masked, header_inj] at hmask
    obtain ⟨hopc, hch, harg⟩ := hmask
    exact ⟨_, _, by rw [← hopc, hfields], hch, harg⟩
  · rintro ⟨ch, arg, rfl, hch, harg⟩
    rw [FieldRow.row, header_masked, hch, harg]

theorem exists_row_of_selectOp {h : Word} {op : Op} (hs : selectOp h = some op) :
    ∃ e ∈ fieldTable, e.op = op ∧ e.Matches h := by
  obtain ⟨row, hrow, rfl⟩ := Option.map_eq_some_iff.mp hs
  have hmatch := List.find?_some hrow
  have hmem := List.mem_of_find?_eq_some hrow
  rw [opTable_eq_rows] at hmem
  obtain ⟨e, he, rfl⟩ := List.mem_map.mp hmem
  exact ⟨e, he, rfl, (e.matches_iff h).mp (beq_iff_eq.mp hmatch)⟩

/-- The table has one row for each operation. -/
theorem FieldRow.matches_of_selectOp {e : FieldRow} (he : e ∈ fieldTable) {h : Word} (hs : selectOp h = some e.op) :
    e.Matches h := by
  obtain ⟨e', he', hop, hmatch⟩ := exists_row_of_selectOp hs
  have hops : (fieldTable.map FieldRow.op).Nodup := by decide
  obtain rfl : e' = e := List.inj_on_of_nodup_map hops he' he hop
  exact hmatch

/-- Two rows one header matches have the same OPC. -/
theorem FieldRow.Matches.opc_eq {e e' : FieldRow} {h : Word} (hm : e.Matches h) (hm' : e'.Matches h) : e.opc = e'.opc := by
  obtain ⟨ch, arg, rfl, -⟩ := hm
  obtain ⟨ch', arg', heq, -⟩ := hm'
  exact (header_inj.mp heq).1

/-! ## The forms of a header (R105) -/

theorem exists_channelBit (ch : BitVec 1) : ∃ n, ch = channelBit n := by
  rcases BitVec.eq_zero_or_eq_one ch with rfl | rfl
  · exact ⟨.ch0, rfl⟩
  · exact ⟨.ch1, rfl⟩

theorem exists_depth_lines (arg : Half) : ∃ depth lines : Byte, arg = depth ++ lines := by
  refine ⟨arg.extractLsb' 8 8, arg.extractLsb' 0 8, BitVec.eq_of_getLsbD_eq fun i hi => ?_⟩
  rw [concat8_getLsbD]
  split_ifs with hlow
  · simp [hlow]
  · simp [show i - 8 < 8 by omega, show 8 + (i - 8) = i by omega]

/-- ARG with the bits 15:1 zero is a flag. -/
theorem exists_flagArg {arg : Half} (h : arg &&& 0xFFFE = 0) : ∃ b, arg = flagArg b := by
  refine ⟨arg.getLsbD 0, BitVec.eq_of_getLsbD_eq fun i hi => ?_⟩
  have hmask : ∀ i < 16, (0xFFFE#16).getLsbD i = decide (0 < i) := by decide
  rcases Nat.eq_zero_or_pos i with rfl | hpos
  · cases hb : arg.getLsbD 0 <;> rfl
  · have hbit : arg.getLsbD i = false := by
      simpa [hmask i hi, hpos] using congrArg (BitVec.getLsbD · i) h
    rw [hbit]
    cases arg.getLsbD 0 with
    | false => simp [flagArg]
    | true => simp [flagArg, BitVec.getLsbD_one, hpos.ne']

theorem and_chMask {ch : BitVec 1} (h : ch &&& 1 = 0) : ch = 0 := by
  rcases BitVec.eq_zero_or_eq_one ch with rfl | rfl
  · rfl
  · cases h

theorem and_argMask {arg : Half} (h : arg &&& 0xFFFF = 0) : arg = 0 := by
  rwa [show (0xFFFF : Half) = BitVec.allOnes 16 from rfl, BitVec.and_allOnes] at h

section
variable {op : Op} {opc : BitVec 8} {h : Word}

theorem FieldRow.Matches.bare (hm : FieldRow.Matches ⟨op, opc, 1, 0xFFFF⟩ h) : h = header opc 0 0 := by
  obtain ⟨ch, arg, rfl, hch, harg⟩ := hm
  rw [and_chMask hch, and_argMask harg]

theorem FieldRow.Matches.channel (hm : FieldRow.Matches ⟨op, opc, 0, 0xFFFF⟩ h) :
    ∃ n, h = header opc (channelBit n) 0 := by
  obtain ⟨ch, arg, rfl, -, harg⟩ := hm
  obtain ⟨n, rfl⟩ := exists_channelBit ch
  exact ⟨n, by rw [and_argMask harg]⟩

theorem FieldRow.Matches.format (hm : FieldRow.Matches ⟨op, opc, 0, 0⟩ h) :
    ∃ n, ∃ depth lines : Byte, h = header opc (channelBit n) (depth ++ lines) := by
  obtain ⟨ch, arg, rfl, -, -⟩ := hm
  obtain ⟨n, rfl⟩ := exists_channelBit ch
  obtain ⟨depth, lines, rfl⟩ := exists_depth_lines arg
  exact ⟨n, depth, lines, rfl⟩

theorem FieldRow.Matches.flag (hm : FieldRow.Matches ⟨op, opc, 1, 0xFFFE⟩ h) : ∃ b, h = header opc 0 (flagArg b) := by
  obtain ⟨ch, arg, rfl, hch, harg⟩ := hm
  obtain ⟨b, rfl⟩ := exists_flagArg harg
  exact ⟨b, by rw [and_chMask hch]⟩

theorem FieldRow.Matches.length (hm : FieldRow.Matches ⟨op, opc, 1, 0⟩ h) : ∃ len, h = header opc 0 len := by
  obtain ⟨ch, arg, rfl, hch, -⟩ := hm
  exact ⟨arg, by rw [and_chMask hch]⟩

end

/-! ## Assigned values of OPC (R109) -/

theorem field_opc_header (opc : BitVec 8) (ch : BitVec 1) (arg : Half) :
    Machine.field (header opc ch arg) 31 24 = opc.toNat := by
  rw [Machine.field_eq_extractLsb', header_opc]

theorem field_rsv_header (opc : BitVec 8) (ch : BitVec 1) (arg : Half) :
    Machine.field (header opc ch arg) 23 17 = 0 := by
  have hbits : Machine.field (header opc ch arg) 23 17 = Machine.field 0 23 17 :=
    Machine.field_congr (by decide) fun i hlo hhi => by
      simp [header_getLsbD, show ¬ i < 16 by omega, show ¬ i < 17 by omega, show i < 24 by omega]
  rw [hbits]
  rfl

theorem opc_assigned : ∀ e ∈ fieldTable,
    (0x01 ≤ e.opc.toNat ∧ e.opc.toNat ≤ 0x04) ∨ (0x10 ≤ e.opc.toNat ∧ e.opc.toNat ≤ 0x13)
      ∨ (0x20 ≤ e.opc.toNat ∧ e.opc.toNat ≤ 0x21) ∨ (0x30 ≤ e.opc.toNat ∧ e.opc.toNat ≤ 0x33) := by
  decide

end Sys2Proof
end

section
/-! The bytes of a payload: their place, their padding, and that a buffer has one payload (spec/30_encoding.md R104). -/

namespace Sys2Proof

theorem payloadBytes_cons (w : Word) (p : List Word) : payloadBytes (w :: p) = wordBytes w ++ payloadBytes p := rfl

theorem payloadBytes_length (p : List Word) : (payloadBytes p).length = 4 * p.length := by
  induction p with
  | nil => rfl
  | cons w p ih =>
    rw [payloadBytes_cons, List.length_append, ih, List.length_cons, show (wordBytes w).length = 4 from rfl]
    omega

/-- Byte i of a payload is byte `i mod 4` of word `i div 4`. -/
theorem payloadBytes_getD (p : List Word) (i : Nat) :
    (payloadBytes p).getD i 0 = (p.getD (i / 4) 0).extractLsb' (8 * (i % 4)) 8 := by
  induction p generalizing i with
  | nil => simp [payloadBytes]
  | cons w p ih =>
    rw [payloadBytes_cons]
    rcases Nat.lt_or_ge i 4 with hlt | hge
    · rw [List.getD_append _ _ _ _ hlt, Nat.div_eq_of_lt hlt, Nat.mod_eq_of_lt hlt]
      interval_cases i <;> rfl
    · obtain ⟨j, rfl⟩ := Nat.exists_eq_add_of_le' hge
      rw [List.getD_append_right _ _ _ _ hge, show j + 4 - (wordBytes w).length = j from rfl, ih,
        Nat.add_div_right j (by decide), Nat.add_mod_right, List.getD_cons_succ]

theorem packWord_extract (w : Word) :
    packWord (w.extractLsb' 0 8) (w.extractLsb' 8 8) (w.extractLsb' 16 8) (w.extractLsb' 24 8) = w := by
  apply BitVec.eq_of_getLsbD_eq
  intro i hi
  rw [packWord_getLsbD]
  split_ifs with h0 h1 h2
  · simp [h0]
  · simp [show i - 8 < 8 by omega, show 8 + (i - 8) = i by omega]
  · simp [show i - 16 < 8 by omega, show 16 + (i - 16) = i by omega]
  · simp [show i - 24 < 8 by omega, show 24 + (i - 24) = i by omega]

theorem wordBytes_injective {v w : Word} (h : wordBytes v = wordBytes w) : v = w := by
  injection h with h0 h
  injection h with h1 h
  injection h with h2 h
  injection h with h3
  rw [← packWord_extract v, h0, h1, h2, h3, packWord_extract]

theorem payloadBytes_injective {p q : List Word} (h : payloadBytes p = payloadBytes q) : p = q := by
  have hlen : p.length = q.length := by
    have := congrArg List.length h
    rw [payloadBytes_length, payloadBytes_length] at this
    omega
  induction p generalizing q with
  | nil => exact (List.eq_nil_of_length_eq_zero hlen.symm).symm
  | cons v p ih =>
    cases q with
    | nil => cases hlen
    | cons w q =>
      obtain ⟨hword, hrest⟩ := List.append_inj h rfl
      rw [wordBytes_injective hword, ih hrest (Nat.succ.inj hlen)]

/-- A payload of the right length whose bytes are the buffer and zeros is the packed buffer. -/
theorem packBytes_eq_of_payloadBytes {p : List Word} {bs : List Byte} {k : Nat} (hlen : p.length = (bs.length + 3) / 4)
    (h : payloadBytes p = bs ++ List.replicate k 0) : packBytes bs = p := by
  obtain ⟨k', hk'⟩ := payloadBytes_packBytes bs
  have hcount := congrArg List.length h
  have hcount' := congrArg List.length hk'
  simp only [payloadBytes_length, packBytes_length, List.length_append, List.length_replicate] at hcount hcount'
  obtain rfl : k' = k := by omega
  exact payloadBytes_injective (hk'.trans h.symm)

theorem paddingZero_iff {len : Nat} {p : List Word} :
    paddingZero len p = true ↔ ∃ k, (payloadBytes p).drop len = List.replicate k 0 := by
  rw [paddingZero, List.all_eq_true]
  constructor
  · intro hzero
    exact ⟨_, List.eq_replicate_iff.mpr ⟨rfl, fun b hb => beq_iff_eq.mp (hzero b hb)⟩⟩
  · rintro ⟨k, hk⟩ b hb
    rw [hk] at hb
    exact beq_iff_eq.mpr (List.eq_of_mem_replicate hb)

/-- A packed buffer passes the padding check and unpacks to the buffer. -/
theorem unpack_packBytes (bs : List Byte) :
    paddingZero bs.length (packBytes bs) = true ∧ (payloadBytes (packBytes bs)).take bs.length = bs := by
  obtain ⟨k, hk⟩ := payloadBytes_packBytes bs
  exact ⟨paddingZero_iff.mpr ⟨k, by rw [hk, List.drop_left]⟩, by rw [hk, List.take_left]⟩

/-- A payload that passes the padding check is the packed buffer it unpacks to. -/
theorem pack_payloadBytes {len : Nat} {p : List Word} (hlen : p.length = (len + 3) / 4)
    (hpad : paddingZero len p = true) :
    ((payloadBytes p).take len).length = len ∧ packBytes ((payloadBytes p).take len) = p := by
  obtain ⟨k, hk⟩ := paddingZero_iff.mp hpad
  have hbuffer : ((payloadBytes p).take len).length = len := by
    rw [List.length_take, payloadBytes_length]
    omega
  refine ⟨hbuffer, packBytes_eq_of_payloadBytes (k := k) (by rw [hbuffer, hlen]) ?_⟩
  rw [← hk, List.take_append_drop]

end Sys2Proof
end

section
/-! What the decoder reads, and that the encoder and the decoder's operand assembly are inverse to each other
(spec/30_encoding.md R105 to R108). -/

namespace Sys2Proof

/-! ## The decoder -/

theorem decode_of_no_row {h : Word} (hs : selectOp h = none) (ws : List Word) : decode (h :: ws) = .illegal .header ws := by
  rw [decode, hs]

/-- The words an operation is read from: a header that selects a row, the payload it announces, and the rest. -/
theorem decode_eq_instr_iff {ws rest : List Word} {i : Instr} :
    decode ws = .instr i rest ↔
      ∃ h op p, ws = h :: (p ++ rest) ∧ selectOp h = some op ∧ p.length = payloadLength op h
        ∧ decodeOperands op h p = .ok i := by
  constructor
  · intro hd
    cases ws with
    | nil => cases hd
    | cons h ws =>
      cases hs : selectOp h with
      | none =>
        rw [decode_of_no_row hs] at hd
        cases hd
      | some op =>
        simp only [decode, hs] at hd
        split at hd
        · cases hd
        · next hlong =>
          split at hd
          · next j hops =>
            cases hd
            exact ⟨h, op, ws.take (payloadLength op h), by rw [List.take_append_drop], hs,
              List.length_take_of_le (Nat.le_of_not_lt hlong), hops⟩
          · cases hd
  · rintro ⟨h, op, p, rfl, hs, hlen, hops⟩
    simp [decode, hs, ← hlen, hops]

/-! ## Operand words -/

theorem low_concat16 (lo hi : Half) : (hi ++ lo : Word).extractLsb' 0 16 = lo := by
  apply BitVec.eq_of_getLsbD_eq
  intro i hi
  simp [concat16_getLsbD, hi]

theorem high_concat16 (lo hi : Half) : (hi ++ lo : Word).extractLsb' 16 16 = hi := by
  apply BitVec.eq_of_getLsbD_eq
  intro i hi
  simp [concat16_getLsbD, hi]

theorem concat16_extract (w : Word) : (w.extractLsb' 16 16 ++ w.extractLsb' 0 16 : Word) = w := by
  apply BitVec.eq_of_getLsbD_eq
  intro i hi
  rw [concat16_getLsbD]
  split_ifs with hlow
  · simp [hlow]
  · simp [show i - 16 < 16 by omega, show 16 + (i - 16) = i by omega]

theorem encodeReq_decodeReq : ∀ {p : List Word}, p.length = 10 → encodeReq (decodeReq p) = p
  | [_, _, _, _, _, _, _, _, _, _], _ => rfl

theorem bufferFits_iff {bytes : List Byte} : bufferFits bytes = true ↔ bytes.length < 65536 := decide_eq_true_iff

/-! ## From an operation to its packet and back -/

/-- Every operation has the packet header of its family (Laws.PacketHeader). -/
theorem packetHeader : ∀ i : Instr, Laws.PacketHeader.Statement i
  | .lock => Laws.PacketHeader.lock
  | .unlock => Laws.PacketHeader.unlock
  | .enable n => Laws.PacketHeader.enable n
  | .disable => Laws.PacketHeader.disable
  | .setclk rate => Laws.PacketHeader.setclk rate
  | .setreq n req => Laws.PacketHeader.setreq n req
  | .setfmt n depth lines => Laws.PacketHeader.setfmt n depth lines
  | .sette flag => Laws.PacketHeader.sette flag
  | .configure n depth lines => Laws.PacketHeader.configure n depth lines
  | .solve n => Laws.PacketHeader.solve n
  | .wrcmd bytes => Laws.PacketHeader.wrcmd bytes
  | .wrdata bytes => Laws.PacketHeader.wrdata bytes
  | .rddata len => Laws.PacketHeader.rddata len
  | .xfer width height callback => Laws.PacketHeader.xfer width height callback

theorem headerArg_length (opc : BitVec 8) (ch : BitVec 1) {bytes : List Byte} (hwf : bufferFits bytes = true) :
    (headerArg (header opc ch (BitVec.ofNat 16 bytes.length))).toNat = bytes.length := by
  rw [header_arg, BitVec.toNat_ofNat, Nat.mod_eq_of_lt (bufferFits_iff.mp hwf)]

/-- The operands assembled from an operation's packet are the operation's. -/
theorem decodeOperands_encode {i : Instr} {h : Word} {p : List Word} (hwf : i.wf = true) (henc : encode i = h :: p) :
    decodeOperands (opOf i) h p = .ok i := by
  cases i with
  | lock => rfl
  | unlock => rfl
  | disable => rfl
  | enable n => cases henc; simp [decodeOperands, opOf, headerChannel_header]
  | solve n => cases henc; simp [decodeOperands, opOf, headerChannel_header]
  | setclk rate => cases henc; rfl
  | setreq n req => cases henc; simp [decodeOperands, opOf, headerChannel_header, decodeReq, encodeReq, payloadWord]
  | setfmt n depth lines =>
    cases henc; simp [decodeOperands, opOf, headerChannel_header, headerDepth_header, headerLines_header]
  | configure n depth lines =>
    cases henc; simp [decodeOperands, opOf, headerChannel_header, headerDepth_header, headerLines_header]
  | sette flag => cases henc; simp [decodeOperands, opOf, headerFlag_header]
  | wrcmd bytes =>
    cases henc
    obtain ⟨hpad, hbytes⟩ := unpack_packBytes bytes
    simp only [decodeOperands, opOf, headerArg_length _ _ hwf, hpad, hbytes, if_true]
  | wrdata bytes =>
    cases henc
    obtain ⟨hpad, hbytes⟩ := unpack_packBytes bytes
    simp only [decodeOperands, opOf, headerArg_length _ _ hwf, hpad, hbytes, if_true]
  | rddata len => cases henc; simp [decodeOperands, opOf, header_arg]
  | xfer width height callback =>
    cases callback with
    | none => cases henc; simp [decodeOperands, opOf, headerFlag_header, payloadWord, low_concat16, high_concat16]
    | some c => cases henc; simp [decodeOperands, opOf, headerFlag_header, payloadWord, low_concat16, high_concat16]

/-- What WRCMD and WRDATA (`mk`) are assembled from is the packed form of a buffer the encoding admits. -/
theorem stream_packet {mk : List Byte → Instr} {len : Half} {p : List Word} {i : Instr}
    (hlen : p.length = (len.toNat + 3) / 4)
    (hops : (if paddingZero len.toNat p then .ok (mk ((payloadBytes p).take len.toNat)) else .error .padding)
      = (.ok i : Except Illegal Instr)) :
    ∃ bytes, i = mk bytes ∧ bufferFits bytes = true ∧ BitVec.ofNat 16 bytes.length = len ∧ packBytes bytes = p := by
  split at hops
  · next hpad =>
    cases hops
    obtain ⟨hbuffer, hpack⟩ := pack_payloadBytes hlen hpad
    exact ⟨_, rfl, bufferFits_iff.mpr (by rw [hbuffer]; exact len.isLt), by simp [hbuffer], hpack⟩
  · cases hops

/-- The form a header's row gives it, for the row written out. -/
theorem matches_row {h : Word} {op : Op} (hs : selectOp h = some op) (opc : BitVec 8) (chMask : BitVec 1) (argMask : Half)
    (he : ⟨op, opc, chMask, argMask⟩ ∈ fieldTable := by simp [fieldTable]) :
    FieldRow.Matches ⟨op, opc, chMask, argMask⟩ h :=
  FieldRow.matches_of_selectOp he hs

/-- The packet that operands are assembled from is the packet of the operation they make. -/
theorem encode_of_decodeOperands {op : Op} {h : Word} {p : List Word} {i : Instr} (hs : selectOp h = some op)
    (hlen : p.length = payloadLength op h) (hops : decodeOperands op h p = .ok i) : i.wf = true ∧ encode i = h :: p := by
  cases op with
  | lock =>
    obtain rfl := (matches_row hs 0x01 1 0xFFFF).bare
    obtain rfl := List.eq_nil_of_length_eq_zero hlen
    cases hops
    exact ⟨rfl, rfl⟩
  | unlock =>
    obtain rfl := (matches_row hs 0x02 1 0xFFFF).bare
    obtain rfl := List.eq_nil_of_length_eq_zero hlen
    cases hops
    exact ⟨rfl, rfl⟩
  | enable =>
    obtain ⟨n, rfl⟩ := (matches_row hs 0x03 0 0xFFFF).channel
    obtain rfl := List.eq_nil_of_length_eq_zero hlen
    cases hops
    exact ⟨rfl, by rw [headerChannel_header]; rfl⟩
  | disable =>
    obtain rfl := (matches_row hs 0x04 1 0xFFFF).bare
    obtain rfl := List.eq_nil_of_length_eq_zero hlen
    cases hops
    exact ⟨rfl, rfl⟩
  | setclk =>
    obtain rfl := (matches_row hs 0x10 1 0xFFFF).bare
    obtain ⟨rate, rfl⟩ := List.length_eq_one_iff.mp hlen
    cases hops
    exact ⟨rfl, rfl⟩
  | setreq =>
    obtain ⟨n, rfl⟩ := (matches_row hs 0x11 0 0xFFFF).channel
    cases hops
    exact ⟨rfl, by rw [headerChannel_header, encode, encodeReq_decodeReq hlen]⟩
  | setfmt =>
    obtain ⟨n, depth, lines, rfl⟩ := (matches_row hs 0x12 0 0).format
    obtain rfl := List.eq_nil_of_length_eq_zero hlen
    cases hops
    exact ⟨rfl, by rw [headerChannel_header, headerDepth_header, headerLines_header, encode]⟩
  | sette =>
    obtain ⟨flag, rfl⟩ := (matches_row hs 0x13 1 0xFFFE).flag
    obtain rfl := List.eq_nil_of_length_eq_zero hlen
    cases hops
    exact ⟨rfl, by rw [headerFlag_header, encode]⟩
  | configure =>
    obtain ⟨n, depth, lines, rfl⟩ := (matches_row hs 0x20 0 0).format
    obtain rfl := List.eq_nil_of_length_eq_zero hlen
    cases hops
    exact ⟨rfl, by rw [headerChannel_header, headerDepth_header, headerLines_header, encode]⟩
  | solve =>
    obtain ⟨n, rfl⟩ := (matches_row hs 0x21 0 0xFFFF).channel
    obtain rfl := List.eq_nil_of_length_eq_zero hlen
    cases hops
    exact ⟨rfl, by rw [headerChannel_header, encode]⟩
  | wrcmd =>
    obtain ⟨len, rfl⟩ := (matches_row hs 0x30 1 0).length
    simp only [payloadLength, decodeOperands, header_arg] at hlen hops
    obtain ⟨bytes, rfl, hwf, hlength, hpack⟩ := stream_packet (mk := .wrcmd) hlen hops
    exact ⟨hwf, by rw [encode, hlength, hpack]⟩
  | wrdata =>
    obtain ⟨len, rfl⟩ := (matches_row hs 0x31 1 0).length
    simp only [payloadLength, decodeOperands, header_arg] at hlen hops
    obtain ⟨bytes, rfl, hwf, hlength, hpack⟩ := stream_packet (mk := .wrdata) hlen hops
    exact ⟨hwf, by rw [encode, hlength, hpack]⟩
  | rddata =>
    obtain ⟨len, rfl⟩ := (matches_row hs 0x32 1 0).length
    obtain rfl := List.eq_nil_of_length_eq_zero hlen
    cases hops
    exact ⟨rfl, by rw [header_arg, encode]⟩
  | xfer =>
    obtain ⟨hasCb, rfl⟩ := (matches_row hs 0x33 1 0xFFFE).flag
    obtain ⟨size, cb, ctx, rfl⟩ := List.length_eq_three.mp hlen
    cases hasCb with
    | true =>
      simp only [decodeOperands, headerFlag_header, if_true] at hops
      cases hops
      exact ⟨rfl, by simp [encode, payloadWord, concat16_extract]⟩
    | false =>
      simp only [decodeOperands, headerFlag_header, Bool.false_eq_true, if_false] at hops
      split at hops
      · next hzero =>
        cases hops
        obtain ⟨hcb, hctx⟩ : cb = 0 ∧ ctx = 0 := by simpa [payloadWord] using hzero
        exact ⟨rfl, by simp [encode, payloadWord, concat16_extract, hcb, hctx]⟩
      · cases hops

end Sys2Proof
end

section
/-! GRAN in CONFIG(n), the pixel count of an XFER, and the packet of a table word (spec/30_encoding.md R95, R98, R99). -/

namespace Sys2Proof.Machine

/-! ## GRAN (R99) -/

theorem formatWords_config {L : CfgLayout} {depth lines : Nat} {w : FormatWords} (h : formatWords L depth lines = .ok w) :
    ∃ d m f, w.config = configWord L d m f := by
  unfold formatWords at h
  split at h
  · cases h
  · next d m _ =>
    split at h
    · cases h
    · next f _ =>
      cases h
      exact ⟨d, m, f, rfl⟩

/-- The fields CONFIGURE writes lie on both sides of bit 4: PARMODE in 1:0, DATATYPE in 6:5, CYCLEFMT in 10:9 (R95). -/
theorem configWord_gran (d : Depth) (m : ParMode) (f : CycleFormat) :
    (configWord defaultLayout d m f).getLsbD 4 = false := by
  have hparmode : (BitVec.ofNat 32 (parmodeCode defaultLayout.parmode m) <<< defaultLayout.parmodeAt).getLsbD 4
      = false := by
    cases m <;> rfl
  have hdatatype : (BitVec.ofNat 32 (datatypeCode defaultLayout.datatype d) <<< defaultLayout.datatypeAt).getLsbD 4
      = false := by
    cases d <;> rfl
  have hcyclefmt : (BitVec.ofNat 32 (cyclefmtCode defaultLayout.cyclefmt f) <<< defaultLayout.cyclefmtAt).getLsbD 4
      = false := by
    cases f <;> rfl
  have hfixed : defaultLayout.fixedBits.getLsbD 4 = false := rfl
  simp only [configWord, BitVec.getLsbD_or, hparmode, hdatatype, hcyclefmt, hfixed, Bool.or_false]

theorem zeroExtend_bit_high (g : BitVec 1) {j : Nat} (h : 0 < j) : (g.zeroExtend 32).getLsbD j = false := by
  simp [BitVec.getLsbD_of_ge g j h]

/-! ## The pixel count (R98) -/

theorem pixelCount_le (width height : Half) : width.toNat * height.toNat ≤ 4294836225 :=
  Nat.mul_le_mul (Nat.le_of_lt_succ width.isLt) (Nat.le_of_lt_succ height.isLt)

/-- An XFER by the holder with nothing pending is accepted (43_transfer_engine.md R204). -/
theorem exec_xfer_accepted {width height : Half} {callback : Option Callback} {s : State} (ho : s.issuerHolds)
    (hp : s.xferPending = false) :
    exec (.xfer width height callback) s =
      .next (respond .ok [] (setXferPending true { writeTransfer width height s with pendingCb := callback })) := by
  rw [exec, execXfer, withLock_holder ho, hp]
  rfl

/-! ## Table words -/

theorem decodeTableWord_some {nbits w : Nat} {i : Instr} (h : decodeTableWord nbits w = some i) :
    ∃ rest, decode (tableWords nbits w) = .instr i rest := by
  unfold decodeTableWord at h
  split at h
  · next rest hd =>
    cases h
    exact ⟨rest, hd⟩
  · cases h
  · cases h

end Sys2Proof.Machine
end

section
/-! The statements of the family 30_encoding.md: packets, the opcode table, packed buffers, GRAN and the pixel count. -/

namespace Sys2Proof.Machine

/-- Settles O1. -/
theorem decodeOfEncode : Obligations.DecodeOfEncode := by
  intro i rest hwf
  obtain ⟨h, p, henc, hs, hlen⟩ := packetHeader i hwf
  rw [henc]
  exact decode_eq_instr_iff.mpr ⟨h, opOf i, p, rfl, hs, hlen, decodeOperands_encode hwf henc⟩

/-- Settles O2. -/
theorem legalPacketIsTheEncoding : Obligations.LegalPacketIsTheEncoding := by
  intro ws rest i hd
  obtain ⟨h, op, p, rfl, hs, hlen, hops⟩ := decode_eq_instr_iff.mp hd
  obtain ⟨hwf, henc⟩ := encode_of_decodeOperands hs hlen hops
  exact ⟨hwf, by rw [henc]; rfl⟩

/-- Settles O3: a header has one OPC, and no two rows share theirs. -/
theorem opcodeRowsDisjoint : Obligations.OpcodeRowsDisjoint := by
  intro h
  have hopcs : fieldTable.Pairwise (fun a b => a.opc ≠ b.opc) := by decide
  rw [opTable_eq_rows, List.pairwise_map]
  refine hopcs.imp fun {a b} hne ⟨ha, hb⟩ => hne ?_
  exact ((a.matches_iff h).mp ha).opc_eq ((b.matches_iff h).mp hb)

/-- Settles O4: a header some row selects has RSV zero and the OPC of the row. -/
theorem reservedHeaderIsIllegal : Obligations.ReservedHeaderIsIllegal := by
  intro h ws hreserved
  refine decode_of_no_row (Option.eq_none_iff_forall_ne_some.mpr fun op hs => ?_) ws
  obtain ⟨e, he, -, ch, arg, rfl, -⟩ := exists_row_of_selectOp hs
  have hassigned := opc_assigned e he
  rw [field_opc_header, field_rsv_header] at hreserved
  omega

/-- Settles O5: a packed buffer read byte by byte is the buffer, then zeros. -/
theorem bytesPackLittleEndian : Obligations.BytesPackLittleEndian := by
  intro bs
  obtain ⟨k, hk⟩ := payloadBytes_packBytes bs
  refine ⟨packBytes_length bs, fun i hi => ?buffer, fun i hi _ => ?padding⟩
  case buffer =>
    rw [← payloadBytes_getD, hk, List.getD_append _ _ _ _ hi, List.getD_eq_getElem _ _ hi]
  case padding =>
    rw [← payloadBytes_getD, hk, List.getD_append_right _ _ _ _ hi]
    simp

/-- Settles O38. -/
theorem granIsBitFourAlone : Obligations.GranIsBitFourAlone := by
  refine ⟨fun depth lines w hw => ?configured, fun v g => ⟨?written, fun i hi => ?kept⟩⟩
  case configured =>
    obtain ⟨d, m, f, hconfig⟩ := formatWords_config hw
    rw [hconfig, configWord_gran]
  case written =>
    rw [setField_getLsbD_inside (by decide) v _ (by decide) (by decide)]
    simp [defaultLayout]
  case kept =>
    exact setField_getLsbD_outside (le_refl _) (by decide) v (fun j hj => zeroExtend_bit_high g (by omega))
      (Nat.lt_or_gt_of_ne hi)

/-- Settles O46. -/
theorem pixelCountDoesNotWrap : Obligations.PixelCountDoesNotWrap := by
  intro width height callback s ho hp
  have hle := pixelCount_le width height
  refine ⟨hle, _, exec_xfer_accepted ho hp, ?_⟩
  simp only [respond_regs, setXferPending_regs, writeTransfer_eq, BitVec.toNat_ofNat]
  exact Nat.mod_eq_of_lt (by omega)

/-- Settles O6: the words are the packets of those operations. -/
theorem writtenWordsDecode : Obligations.WrittenWordsDecode :=
  ⟨decodeOfEncode .lock [] rfl, decodeOfEncode (.enable .ch1) [] rfl, decodeOfEncode (.setfmt .ch1 24 16) [] rfl,
    decodeOfEncode (.sette true) [] rfl, decodeOfEncode (.setclk 50000) [] rfl, decodeOfEncode (.wrcmd [0x2c]) [] rfl,
    decodeOfEncode (.xfer 320 240 (some ⟨0x1000, 0x2000⟩)) [] rfl⟩

/-- Settles O8: requester 0 is served, waits for nothing, and has the word's packet at its port. -/
theorem placedWordRunsNext : Obligations.PlacedWordRunsNext := by
  intro s nbits w i hi
  obtain ⟨rest, hd⟩ := decodeTableWord_some hi
  have hport : (s.withFetchWord nbits w).portWords 0 = tableWords nbits w := getD_putPort_same 0 _ s.ports
  have hwaiting : 0 ∉ (s.withFetchWord nbits w).waiting := by simp [State.withFetchWord, placePacket]
  exact ⟨_, stepRunsDecodedOperation _ _ 0 i
    ⟨s.schedule, rest, rfl, Nat.succ_pos _, hwaiting, by rw [hport, hd], rfl⟩⟩

end Sys2Proof.Machine
end

section
/-! The load operations and the three unspecified cases (spec/40_setup.md R130 to R136). -/

namespace Sys2Proof.Machine

/-! ## Outside the specified behaviour (R136) -/

theorem rateInRange_iff {rate : Word} : rateInRange rate = true ↔ 1 ≤ rate.toNat ∧ rate.toNat ≤ 1000000000 :=
  decide_eq_true_iff

/-- U1. -/
theorem exec_setclk_refused {rate : Word} (h : ¬ rateInRange rate = true) (s : State) :
    exec (.setclk rate) s = .refused .clockRateUnspecified := by
  rw [exec, execSetclk, if_neg h]

/-- U2 for SOLVE. -/
theorem exec_solve_unloaded {n : Channel} {s : State} (ho : s.issuerHolds) (h : s.clk = none ∨ s.req.get n = none) :
    exec (.solve n) s = .refused .parameterUnloaded := by
  rw [exec, execSolve, withLock_holder ho]
  split
  · next hclk hreq => simp [hclk, hreq] at h
  · rfl

/-- U2 for ENABLE. -/
theorem exec_enable_unloaded {n : Channel} {s : State} (ho : s.issuerHolds)
    (h : s.clk = none ∨ s.req.get n = none ∨ s.fmt.get n = none) :
    exec (.enable n) s = .refused .parameterUnloaded := by
  rw [exec, execEnable, withLock_holder ho]
  split
  · next hclk hfmt hreq => simp [hclk, hfmt, hreq] at h
  · rfl

/-- U3, for every stream at once. -/
theorem withStream_noMode {len : Nat} {body : UnitSize → State → Result} {s : State} (ho : s.issuerHolds)
    (hmode : s.parMode = none) : withStream len body s = .refused .noParallelMode := by
  rw [withStream, withLock_holder ho, hmode]
  rfl

/-! ## Loading -/

theorem exec_setclk_accepted {rate : Word} (h : rateInRange rate = true) (s : State) :
    exec (.setclk rate) s =
      .next (respond .ok [] (clearConverted .ch1 (clearConverted .ch0 { s with clk := some ⟨periodOf rate⟩ }))) := by
  rw [exec, execSetclk, if_pos h, finish]

theorem exec_setreq (n : Channel) (req : TimingReq) (s : State) :
    exec (.setreq n req) s = .next (respond .ok [] (clearConverted n { s with req := s.req.set n (some req) })) := by
  rw [exec, execSetreq, finish]

theorem exec_setfmt (n : Channel) (depth lines : Byte) (s : State) :
    exec (.setfmt n depth lines) s = .next (respond .ok [] { s with fmt := s.fmt.set n (some ⟨depth, lines⟩) }) := by
  rw [exec, execSetfmt, finish]

theorem exec_sette (flag : Bool) (s : State) : exec (.sette flag) s = .next (respond .ok [] (setTeActive flag s)) := by
  rw [exec, execSette, finish]

theorem converted_clearConverted_same (n : Channel) (s : State) :
    ((clearConverted n s).solved.get n).converted = false := by
  simp

/-- Clearing channel 1 leaves what was cleared of channel 0 (R134). -/
theorem converted_clearConverted_both (n : Channel) (s : State) :
    ((clearConverted .ch1 (clearConverted .ch0 s)).solved.get n).converted = false := by
  cases n with
  | ch0 =>
    rw [clearConverted_solved, PerChannel.get_set_other _ (by decide)]
    exact converted_clearConverted_same .ch0 s
  | ch1 => exact converted_clearConverted_same .ch1 _

end Sys2Proof.Machine
end

section
/-! The statements of the family 40_setup.md: the load operations and the unspecified cases. -/

namespace Sys2Proof.Machine

/-- Settles O20: U1, then U2 by SOLVE and by ENABLE, then U3. -/
theorem unspecifiedCasesRefused : Obligations.UnspecifiedCasesRefused := by
  refine ⟨fun rate s hrate => exec_setclk_refused ?_ s, fun n s => exec_solve_unloaded, fun n s => exec_enable_unloaded,
    fun bytes len s ho hmode => ⟨?_, ?_, ?_⟩⟩
  · rw [rateInRange_iff]
    omega
  · rw [exec, execWrcmd, withStream_noMode ho hmode]
  · rw [exec, execWrdata, withStream_noMode ho hmode]
  · rw [exec, execRddata, withStream_noMode ho hmode]

/-- Settles O21: the timings and the draws are those that clearing both flags leaves. -/
theorem setclkLoadsThePeriod : Obligations.SetclkLoadsThePeriod := fun rate s hlo hhi =>
  ⟨_, _, fun n => converted_clearConverted_both n { s with clk := some ⟨periodOf rate⟩ },
    exec_setclk_accepted (rateInRange_iff.mpr ⟨hlo, hhi⟩) s⟩

/-- Settles O22. -/
theorem setreqReplacesTheRequirement : Obligations.SetreqReplacesTheRequirement := fun n req s =>
  ⟨_, _, unsolvedTiming_converted _ _ _ _ _, exec_setreq n req s⟩

/-- Settles O23. -/
theorem setfmtAndSetteLoad : Obligations.SetfmtAndSetteLoad := ⟨exec_setfmt, exec_sette⟩

end Sys2Proof.Machine
end

section
/-! What the formatter accepts and refuses, and CONFIGURE on either answer (spec/41_bus_formatter.md R141 to R151). -/

namespace Sys2Proof.Machine

/-! ## Validation (R141) -/

theorem Depth.ofBits_eq_none_iff {depth : Nat} : Depth.ofBits depth = none ↔ depth ∉ [12, 16, 18, 24] := by
  unfold Depth.ofBits
  split_ifs <;> simp [*]

theorem ParMode.ofLines_eq_none_iff {lines : Nat} : ParMode.ofLines lines = none ↔ lines ∉ [8, 9, 12, 16] := by
  unfold ParMode.ofLines
  split_ifs <;> simp [*]

theorem validate_unsupportedFormat_iff (depth lines : Nat) :
    validate depth lines = .error .unsupportedFormat ↔ (depth ∉ [12, 16, 18, 24] ∨ lines ∉ [8, 9, 12, 16]) := by
  rw [← Depth.ofBits_eq_none_iff, ← ParMode.ofLines_eq_none_iff, validate]
  cases Depth.ofBits depth with
  | none => simp
  | some d => cases ParMode.ofLines lines <;> simp

/-! ## Classification (R142) -/

/-- A depth that passes the test "3:2" has the ratio, for a line count of 0 too. -/
theorem ratio_of_f32_test {depth lines : Nat} (hmod : (2 * depth) % lines = 0) (hquot : (2 * depth) / lines = 3) :
    2 * depth = 3 * lines :=
  Nat.eq_mul_of_div_eq_left (Nat.dvd_of_mod_eq_zero hmod) hquot

theorem f32_test_iff {depth lines : Nat} (hpos : 1 ≤ lines) :
    (2 * depth) % lines = 0 ∧ (2 * depth) / lines = 3 ↔ 2 * depth = 3 * lines := by
  refine ⟨fun ⟨hmod, hquot⟩ => ratio_of_f32_test hmod hquot, fun h => ?_⟩
  rw [h]
  exact ⟨Nat.mul_mod_left 3 lines, Nat.mul_div_cancel 3 hpos⟩

/-- R142's tests by remainder and quotient are tests for a multiple of the line count. -/
theorem classify_eq_of_pos {depth lines : Nat} (hpos : 1 ≤ lines) :
    classify depth lines =
      if depth = lines then .ok .f11
      else if depth = 2 * lines then .ok .f21
      else if depth = 3 * lines then .ok .f31
      else if 2 * depth = 3 * lines then .ok .f32
      else .error .unsupportedRatio := by
  by_cases hdvd : lines ∣ depth
  · have hquot (k : Nat) : depth / lines = k ↔ depth = k * lines := Nat.div_eq_iff_eq_mul_left hpos hdvd
    have hno32 : 2 * depth ≠ 3 * lines := by
      obtain ⟨q, rfl⟩ := hdvd
      intro h
      have hq : 2 * q = 3 := Nat.eq_of_mul_eq_mul_left hpos (by linarith)
      omega
    simp only [classify, Nat.mod_eq_zero_of_dvd hdvd, hquot, hno32, one_mul, if_true, if_false]
  · have hmul (k : Nat) : depth ≠ k * lines := fun h => hdvd ⟨k, by rw [h, mul_comm]⟩
    have hne : depth ≠ lines := by simpa using hmul 1
    simp only [classify, ← Nat.dvd_iff_mod_eq_zero, hdvd, hmul 2, hmul 3, hne, if_false]
    simp only [Nat.dvd_iff_mod_eq_zero, f32_test_iff hpos]

theorem classify_error {depth lines : Nat} {e : Status} (h : classify depth lines = .error e) : e = .unsupportedRatio := by
  unfold classify at h
  split_ifs at h <;> cases h <;> rfl

/-- "3:2" means three bits of depth for two lines (R144). -/
theorem ratio_of_classify_f32 {depth lines : Nat} (h : classify depth lines = .ok .f32) : 2 * depth = 3 * lines := by
  unfold classify at h
  split at h
  · split_ifs at h <;> cases h
  · split at h
    · next htest =>
      obtain ⟨hmod, hquot⟩ := htest
      exact ratio_of_f32_test hmod hquot
    · cases h

/-! ## The pure formatter -/

/-- Validation comes first, and classification never answers UnsupportedFormat (R141). -/
theorem formatWords_unsupportedFormat_iff (L : CfgLayout) (depth lines : Nat) :
    formatWords L depth lines = .error .unsupportedFormat ↔ validate depth lines = .error .unsupportedFormat := by
  unfold formatWords
  cases validate depth lines with
  | error e => simp
  | ok p =>
    cases hc : classify depth lines with
    | error e => simp [classify_error hc]
    | ok f => simp

/-! ## CONFIGURE (R147, R151) -/

section
variable {n : Channel} {depth lines : Byte} {s : State} (ho : s.issuerHolds)
include ho

theorem exec_configure_accepted {w : FormatWords} (hw : formatWords s.params.layout depth.toNat lines.toNat = .ok w) :
    exec (.configure n depth lines) s = .next (respond .ok [] (writeFormat n w s)) := by
  rw [exec, execConfigure, withLock_holder ho, configureBody, hw]
  rfl

theorem exec_configure_refused {e : Status} (he : formatWords s.params.layout depth.toNat lines.toNat = .error e) :
    exec (.configure n depth lines) s = .next (respond e [] s) := by
  rw [exec, execConfigure, withLock_holder ho, configureBody, he]
  rfl

end

end Sys2Proof.Machine
end

section
/-! The statements of the family 41_bus_formatter.md: the formatter's answers and CONFIGURE. -/

namespace Sys2Proof.Machine

/-- Settles O24: validation alone answers UnsupportedFormat. -/
theorem unsupportedFormatExactly : Obligations.UnsupportedFormatExactly := by
  intro L depth lines
  rw [formatWords_unsupportedFormat_iff]
  exact validate_unsupportedFormat_iff depth lines

/-- Settles O25: with a line count of at least 1 the four ratios exclude each other. -/
theorem classifyByRatio : Obligations.ClassifyByRatio := by
  refine ⟨fun depth lines hpos => ?_, rfl⟩
  rw [classify_eq_of_pos hpos]
  split_ifs <;> simp only [reduceCtorEq, Except.ok.injEq, true_iff, false_iff] <;> omega

/-- Settles O26: the rows by evaluation, the parity of the line count from the ratio. -/
theorem formatTable : Obligations.FormatTable := by
  refine ⟨rfl, rfl, rfl, rfl, rfl, rfl, rfl, rfl, rfl, rfl, rfl, rfl, rfl, rfl, rfl, rfl,
    rfl, rfl, rfl, rfl, rfl, rfl, rfl, rfl, rfl, fun depth lines h => ?_⟩
  have hratio := ratio_of_classify_f32 h
  omega

/-- Settles O27: the accesses are those of the formatter's writes, whole. -/
theorem configureWritesTheFormat : Obligations.ConfigureWritesTheFormat := by
  intro n depth lines w s ho hw
  rw [exec_configure_accepted ho hw, writeFormat_eq]
  simp [respond, emit, channelOffset]

/-- Settles O28: the formatter refuses before the first register access. -/
theorem failedConfigureChangesNothing : Obligations.FailedConfigureChangesNothing :=
  fun _ _ _ _ _ ho => exec_configure_refused ho

end Sys2Proof.Machine
end

section
/-! Counts, dividers and SOLVE on either answer (spec/42_timing_solver.md R161 to R177, R187, R188). -/

namespace Sys2Proof.Machine

/-! ## Ceilings (00_scope.md R15) -/

/-- The model's ceiling is Mathlib's. -/
theorem ceilDiv_eq (a b : Nat) : ceilDiv a b = a ⌈/⌉ b := rfl

theorem ceilDiv_le_iff {b : Nat} (hb : 0 < b) (a c : Nat) : ceilDiv a b ≤ c ↔ a ≤ b * c := by
  rw [ceilDiv_eq, ceilDiv_le_iff_le_mul hb]

theorem ceilDiv_ceilDiv {b d : Nat} (hb : 0 < b) (hd : 0 < d) (a : Nat) :
    ceilDiv (ceilDiv a b) d = ceilDiv a (b * d) :=
  eq_of_forall_ge_iff fun c => by
    rw [ceilDiv_le_iff hd, ceilDiv_le_iff hb, ceilDiv_le_iff (Nat.mul_pos hb hd), mul_assoc]

/-! ## Raw counts (R165, R188) -/

/-- Rounding up to the tick first does not change the count (R165). -/
theorem rawAt_eq_ceilDiv (ps : Ten Nat) {p d : Nat} (hp : 1 ≤ p) (hd : 1 ≤ d) :
    rawAt ps p d = tenMap (fun x => ceilDiv x (p * d)) ps := by
  have htick : 0 < p * d := Nat.mul_pos hp hd
  have hmul (c : Nat) : ceilDiv (c * (p * d)) (p * d) = c := by
    rw [ceilDiv_eq, mul_comm, ← smul_eq_mul, smul_ceilDiv htick]
  simp only [rawAt, roundedAt, tickCounts, roundTo, tenMap, hmul]

/-- A larger divider divides the counts of divider 1 (R188). -/
theorem rawAt_eq_ceilDiv_rawAt_one (ps : Ten Nat) {p d : Nat} (hp : 1 ≤ p) (hd : 1 ≤ d) :
    rawAt ps p d = tenMap (fun c => ceilDiv c d) (rawAt ps p 1) := by
  rw [rawAt_eq_ceilDiv ps hp hd, rawAt_eq_ceilDiv ps hp le_rfl]
  simp only [tenMap, mul_one, ceilDiv_ceilDiv hp hd]

/-! ## The width check on raw counts (R167, R187) -/

/-- The three on counts are at most `on` and the other seven at most `off`. -/
def CountsWithin (t : Ten Nat) (on off : Nat) : Prop :=
  t.csOn ≤ on ∧ t.weOn ≤ on ∧ t.reOn ≤ on ∧ t.csOff ≤ off ∧ t.weOff ≤ off ∧ t.reOff ≤ off
    ∧ t.access ≤ off ∧ t.weCycle ≤ off ∧ t.reCycle ≤ off ∧ t.csPulse ≤ off

theorem fits_iff_countsWithin (t : Ten Nat) : fits t = true ↔ CountsWithin t 15 63 := fits_iff t

theorem CountsWithin.mono {t : Ten Nat} {on off on' off' : Nat} (h : CountsWithin t on off) (hon : on ≤ on')
    (hoff : off ≤ off') : CountsWithin t on' off' := by
  unfold CountsWithin at *
  omega

theorem countsWithin_ceilDiv_iff {d : Nat} (hd : 0 < d) (t : Ten Nat) (on off : Nat) :
    CountsWithin (tenMap (fun c => ceilDiv c d) t) on off ↔ CountsWithin t (d * on) (d * off) := by
  simp only [CountsWithin, tenMap, ceilDiv_le_iff hd]

theorem bumpAbove_eq_max (on off : Nat) : bumpAbove on off = max off (on + 1) := by
  unfold bumpAbove
  split <;> omega

theorem raiseTo_eq_max (floor x : Nat) : raiseTo floor x = max x floor := by
  unfold raiseTo
  split <;> omega

/-- An adjustment raises a count only to another count, or to one above an on count, and that is at most 16 (R187). -/
theorem countsWithin_adjust_iff (t : Ten Nat) : CountsWithin (adjust t) 15 63 ↔ CountsWithin t 15 63 := by
  simp only [CountsWithin, adjust, bumpAbove_eq_max, raiseTo_eq_max, max_le_iff]
  omega

/-- A divider is accepted when its raw counts fit, before any adjustment (R187). -/
theorem attempt_isSome_iff (ps : Ten Nat) (p d : Nat) :
    (attempt ps p d).isSome = true ↔ CountsWithin (rawAt ps p d) 15 63 := by
  rw [← countsWithin_adjust_iff, ← fits_iff_countsWithin, attempt, adjustedAt]
  split <;> simp [*]

theorem attempt_of_countsWithin {ps : Ten Nat} {p d : Nat} (h : CountsWithin (rawAt ps p d) 15 63) :
    ∃ r, attempt ps p d = some r ∧ r.div = d := by
  obtain ⟨r, hr⟩ := Option.isSome_iff_exists.mp ((attempt_isSome_iff ps p d).mpr h)
  obtain ⟨-, hdiv, -⟩ := attempt_some hr
  exact ⟨r, hr, hdiv⟩

theorem attempt_eq_none {ps : Ten Nat} {p d : Nat} (h : ¬ CountsWithin (rawAt ps p d) 15 63) :
    attempt ps p d = none :=
  Option.not_isSome_iff_eq_none.mp (mt (attempt_isSome_iff ps p d).mp h)

/-! ## The divider loop (R161) -/

theorem solveFrom_succ (ps : Ten Nat) (p left d : Nat) :
    solveFrom ps p (left + 1) d = (attempt ps p d).or (solveFrom ps p left (d + 1)) := by
  rw [solveFrom]
  cases attempt ps p d <;> rfl

/-- With two dividers, divider 2 is tried where divider 1 is refused. -/
theorem solve_two (req : TimingReq) (p : Nat) :
    solve req p 2 = (attempt (reqPs req) p 1).or (attempt (reqPs req) p 2) := by
  rw [solve, solveFrom_succ, solveFrom_succ, solveFrom, Option.or_none]

theorem solveFrom_mono {ps : Ten Nat} {p : Nat} {r : Solution} {k k' d : Nat} (h : solveFrom ps p k d = some r)
    (hle : k ≤ k') : solveFrom ps p k' d = some r := by
  induction k generalizing k' d with
  | zero => cases h
  | succ k ih =>
    obtain ⟨k', rfl⟩ := Nat.exists_eq_add_of_le' (Nat.one_le_of_lt hle)
    rw [solveFrom_succ, Option.or_eq_some_iff] at h ⊢
    exact h.imp_right fun ⟨hrefused, hrest⟩ => ⟨hrefused, ih hrest (by omega)⟩

/-! ## The zero requirement (R185) -/

abbrev zeroRequirement : TimingReq := ⟨0, 0, 0, 0, 0, 0, 0, 0, 0, 0⟩

/-- No picoseconds are no ticks. -/
theorem rawAt_zeroRequirement {p : Nat} (hp : 1 ≤ p) :
    rawAt (reqPs zeroRequirement) p 1 = ⟨0, 0, 0, 0, 0, 0, 0, 0, 0, 0⟩ := by
  rw [rawAt_eq_ceilDiv _ hp le_rfl]
  simp [tenMap, reqPs, ceilDiv_eq]

/-- The ordering rules alone raise six counts to 1. -/
theorem adjustedAt_zeroRequirement {p : Nat} (hp : 1 ≤ p) :
    adjustedAt (reqPs zeroRequirement) p 1 = ⟨0, 1, 0, 1, 1, 0, 1, 1, 1, 0⟩ := by
  rw [adjustedAt, rawAt_zeroRequirement hp]
  rfl

/-! ## SOLVE on either answer (R175 to R177) -/

section
variable {n : Channel} {clk : ClockContext} {req : TimingReq} {s : State} (ho : s.issuerHolds) (hclk : s.clk = some clk)
  (hreq : s.req.get n = some req)
include ho hclk hreq

theorem exec_solve_met {r : Solution} (hr : solve req clk.periodPs Config.maxDiv = some r) :
    exec (.solve n) s =
      .next (respond .ok [] (writeTiming n (solvedOf r) { s with solved := s.solved.set n (solvedOf r) })) := by
  simp only [exec, execSolve, withLock_holder ho, hclk, hreq, solveBody, hr, finish]

theorem exec_solve_unmet (hr : solve req clk.periodPs Config.maxDiv = none) :
    exec (.solve n) s = .next (respond .timingUnsatisfiable [] (clearConverted n s)) := by
  simp only [exec, execSolve, withLock_holder ho, hclk, hreq, solveBody, hr, finish]

end

/-- GRAN as it is stored and as it is written to CONFIG(n): the divider less 1 is one bit (R168, R177). -/
theorem gran_zeroExtend {g : Nat} (h : g ≤ 1) : (BitVec.ofNat 1 g).zeroExtend 32 = BitVec.ofNat 32 g := by
  interval_cases g <;> rfl

end Sys2Proof.Machine
end

section
/-! The statements of the family 42_timing_solver.md: the solver's dividers, counts and words, and SOLVE. -/

namespace Sys2Proof.Machine

/-- Settles O30. -/
theorem acceptedExactlyByRawCounts : Obligations.AcceptedExactlyByRawCounts :=
  ⟨fun ps _ _ => rawAt_eq_ceilDiv ps, attempt_isSome_iff⟩

/-- Settles O31: the raw counts at divider 2 are within 15 and 63 when those at divider 1 are within 30 and 126. -/
theorem dividerInClosedForm : Obligations.DividerInClosedForm := by
  intro req p hp
  have hhalf := rawAt_eq_ceilDiv_rawAt_one (reqPs req) (d := 2) hp (by decide)
  have hdouble : CountsWithin (rawAt (reqPs req) p 2) 15 63 ↔ CountsWithin (rawAt (reqPs req) p 1) 30 126 := by
    rw [hhalf]
    exact countsWithin_ceilDiv_iff (by decide) _ 15 63
  rw [solve_two]
  refine ⟨fun x => ?_, hhalf, fun (h1 : CountsWithin _ 15 63) => ?one, fun (h1 : ¬ CountsWithin _ 15 63) h2 => ?two,
    fun (h2 : ¬ CountsWithin _ 30 126) => ?unsatisfiable⟩
  · rw [ceilDiv_ceilDiv hp (by decide), mul_comm]
  case one =>
    obtain ⟨r, hr, hdiv⟩ := attempt_of_countsWithin h1
    exact ⟨r, by rw [hr, Option.some_or], hdiv⟩
  case two =>
    rw [attempt_eq_none h1, Option.none_or]
    exact attempt_of_countsWithin (hdouble.mpr h2)
  case unsatisfiable =>
    rw [attempt_eq_none fun h1 => h2 (h1.mono (by decide) (by decide)), attempt_eq_none (mt hdouble.mp h2), Option.or_none]

/-- Settles O32, by induction on the dividers left to the loop. -/
theorem moreDividersSameSolution : Obligations.MoreDividersSameSolution := fun _ _ _ _ _ => solveFrom_mono

/-- Settles O33: the words are packed from adjusted counts that passed the width check. -/
theorem solvedWordsHoldTheCounts : Obligations.SolvedWordsHoldTheCounts := by
  intro req p k r h
  obtain ⟨-, -, hfits, hA, hB⟩ := solve_some h
  obtain ⟨hcsOn, hcsOff, hweOn, hweOff, hreOn, hreOff, -⟩ := packA_fields hfits
  obtain ⟨hweCycle, hreCycle, hcsPulse, haccess, -⟩ := packB_fields hfits
  have hunused := solve_unusedZero h
  rw [hA, hB] at hunused ⊢
  exact ⟨rfl, hcsOn, hcsOff, hweOn, hweOff, hreOn, hreOff, hweCycle, hreCycle, hcsPulse, haccess, hunused,
    (fits_iff _).mp hfits⟩

/-- Settles O34: the ordering gives the lower bounds, and a zero word has no field of at least 1. -/
theorem solvedWordsAreOrdered : Obligations.SolvedWordsAreOrdered := by
  refine ⟨fun _ _ _ _ => solve_ordered, fun t => ?closed, fun req p k r h => ?bounds⟩
  case closed =>
    simp only [adjust, bumpAbove_eq_max, raiseTo_eq_max, and_self]
  case bounds =>
    obtain ⟨hweOff, hreOff, hcsOff, -, -, haccess, hweCycle, hreCycle⟩ := solve_ordered h
    have hA : 1 ≤ field r.wordA 19 14 := by omega
    have hB : 1 ≤ field r.wordB 5 0 := by omega
    refine ⟨hA, by omega, by omega, by omega, hB, by omega, fun h0 => ?_, fun h0 => ?_⟩
    · rw [h0] at hA
      exact absurd hA (by decide)
    · rw [h0] at hB
      exact absurd hB (by decide)

/-- Settles O36: the writes of a solution whose divider is 1 or 2, so that GRAN holds the divider less 1. -/
theorem solveWritesTheTiming : Obligations.SolveWritesTheTiming := by
  intro n clk req r s ho hclk hreq hr
  obtain ⟨-, hdiv, -⟩ := solve_some hr
  rw [exec_solve_met ho hclk hreq hr, writeTiming_eq, show (solvedOf r).gran = BitVec.ofNat 1 (r.div - 1) from rfl,
    gran_zeroExtend (by omega)]
  simp [respond, emit, channelOffset, solvedOf]

/-- Settles O35: the zero requirement at every period; the worked example by evaluation. -/
theorem zeroRequirementAndWorkedExample : Obligations.ZeroRequirementAndWorkedExample := by
  refine ⟨fun p hp => ⟨rawAt_zeroRequirement hp, adjustedAt_zeroRequirement hp, ?solution⟩,
    rfl, rfl, rfl, rfl, rfl, rfl, _, rfl, rfl⟩
  have hfits : CountsWithin (rawAt (reqPs zeroRequirement) p 1) 15 63 := by
    rw [rawAt_zeroRequirement hp]
    simp [CountsWithin]
  obtain ⟨r, hr, hdiv⟩ := attempt_of_countsWithin hfits
  obtain ⟨-, -, hA, hB, -⟩ := attempt_some hr
  rw [adjustedAt_zeroRequirement hp] at hA hB
  refine ⟨r, ?_, hdiv, hA, hB, ?_⟩
  · rw [solve_two, hr, Option.some_or]
  · rw [solvedOf, hdiv]
    rfl

/-- Settles O37: the timing and the draws are those that clearing the flag leaves. -/
theorem failedSolveClearsConverted : Obligations.FailedSolveClearsConverted :=
  fun _ _ _ _ ho hclk hreq hr => ⟨_, _, unsolvedTiming_converted _ _ _ _ _, exec_solve_unmet ho hclk hreq hr⟩

end Sys2Proof.Machine
end

section
/-! Streams: the stream check by mode and length, the units of a buffer, and each stream past its checks
(spec/43_transfer_engine.md R191 to R198). -/

namespace Sys2Proof.Machine

/-! ## The stream check (R191, R192) -/

/-- A stream passes its check by bytes in 8-line mode, and by halves of an even length in 16-line mode; no other way. -/
theorem streamCheck_eq_go_iff {mode : Option ParMode} {len : Nat} {u : UnitSize} :
    streamCheck mode len = .go u ↔
      (mode = some .m8 ∧ u = .byte) ∨ (mode = some .m16 ∧ len % 2 = 0 ∧ u = .half) := by
  rcases mode with _ | _ | _ | _ | _
  case some.m16 =>
    rcases Nat.mod_two_eq_zero_or_one len with h | h <;> simp [streamCheck, h, eq_comm]
  all_goals simp [streamCheck, eq_comm]

theorem streamCheck_m16_odd {len : Nat} (h : len % 2 = 1) : streamCheck (some .m16) len = .stop .misalignedLength :=
  if_pos h

section
variable {len : Nat} {body : UnitSize → State → Result} {s : State} (ho : s.issuerHolds)
include ho

theorem withStream_go {u : UnitSize} (hc : streamCheck s.parMode len = .go u) : withStream len body s = body u s := by
  rw [withStream, withLock_holder ho, hc]

theorem withStream_stop {e : Status} (hc : streamCheck s.parMode len = .stop e) :
    withStream len body s = .next (respond e [] s) := by
  rw [withStream, withLock_holder ho, hc]
  rfl

end

/-! ## Units of a buffer (R193) -/

theorem zeroExtend_byte (b : Byte) : b.zeroExtend 32 = BitVec.ofNat 32 b.toNat := (BitVec.ofNat_toNat 32 b).symm

/-- The byte at the lower index is the less significant one. -/
theorem zeroExtend_half (b0 b1 : Byte) : (b1 ++ b0).zeroExtend 32 = BitVec.ofNat 32 (b0.toNat + 256 * b1.toNat) := by
  have happend : (b1 ++ b0 : Half).toNat = b0.toNat + 256 * b1.toNat := by
    rw [BitVec.toNat_append, ← Nat.shiftLeft_add_eq_or_of_lt b0.isLt, Nat.shiftLeft_eq]
    omega
  rw [← happend]
  exact (BitVec.ofNat_toNat 32 (b1 ++ b0 : Half)).symm

theorem halfUnits_length (bs : List Byte) : (halfUnits bs).length = bs.length / 2 := by
  induction bs using halfUnits.induct with
  | case1 b0 b1 bs ih =>
    simp only [halfUnits, List.length_cons, ih]
    omega
  | case2 b => simp [halfUnits]
  | case3 => rfl

theorem halfUnits_getElem? (bs : List Byte) (i : Nat) (h : 2 * i + 1 < bs.length) :
    (halfUnits bs)[i]? = some (BitVec.ofNat 32 (bs[2 * i].toNat + 256 * bs[2 * i + 1].toNat)) := by
  induction bs using halfUnits.induct generalizing i with
  | case1 b0 b1 bs ih =>
    cases i with
    | zero => exact congrArg some (zeroExtend_half b0 b1)
    | succ i => exact ih i (by simp only [List.length_cons] at h; omega)
  | case2 b => simp at h
  | case3 => simp at h

/-! ## Each stream past its checks (R195, R196, R198) -/

section
variable {u : UnitSize} {s : State} (ho : s.issuerHolds)
include ho

theorem exec_wrcmd_go {bytes : List Byte} (hc : streamCheck s.parMode bytes.length = .go u) :
    exec (.wrcmd bytes) s = .next (respond .ok [] (writeUnits .cmd (streamUnits u bytes) s)) := by
  rw [exec, execWrcmd, withStream_go ho hc, finish]

theorem exec_wrdata_go {bytes : List Byte} (hc : streamCheck s.parMode bytes.length = .go u) :
    exec (.wrdata bytes) s = .next (respond .ok [] (writeUnits .data (streamUnits u bytes) s)) := by
  rw [exec, execWrdata, withStream_go ho hc, finish]

theorem exec_rddata_go {len : Half} (hc : streamCheck s.parMode len.toNat = .go u) :
    exec (.rddata len) s = .next (respond .ok (readUnits u (unitCount u len.toNat) s).1
      (readUnits u (unitCount u len.toNat) s).2) := by
  rw [exec, execRddata, withStream_go ho hc]

end

/-- A stream that fails its check answers the status and does nothing else, whichever it is (R194). -/
theorem exec_stream_stop {s : State} {e : Status} (ho : s.issuerHolds) :
    (∀ bytes : List Byte, streamCheck s.parMode bytes.length = .stop e →
        exec (.wrcmd bytes) s = .next (respond e [] s) ∧ exec (.wrdata bytes) s = .next (respond e [] s))
      ∧ ∀ len : Half, streamCheck s.parMode len.toNat = .stop e → exec (.rddata len) s = .next (respond e [] s) :=
  ⟨fun _ hc => ⟨by rw [exec, execWrcmd, withStream_stop ho hc], by rw [exec, execWrdata, withStream_stop ho hc]⟩,
    fun _ hc => by rw [exec, execRddata, withStream_stop ho hc]⟩

/-- The bytes of all the units of a length that passes the check are that many bytes. -/
theorem readUnits_length_of_go {mode : Option ParMode} {len : Nat} {u : UnitSize} (hc : streamCheck mode len = .go u)
    (s : State) : (readUnits u (unitCount u len) s).1.length = len := by
  rw [readUnits_length]
  rcases streamCheck_eq_go_iff.mp hc with ⟨-, rfl⟩ | ⟨-, heven, rfl⟩
  · exact Nat.mul_one len
  · exact Nat.div_mul_cancel (Nat.dvd_of_mod_eq_zero heven)

end Sys2Proof.Machine
end

section
/-! The pending transfer and its callback: what every operation and every step does to them, and which events are callbacks
(spec/43_transfer_engine.md R204, R205, R208 to R210). -/

namespace Sys2Proof.Machine

/-! ## XFER (R204, R205) -/

theorem exec_xfer_pending {width height : Half} {callback : Option Callback} {s : State} (ho : s.issuerHolds)
    (hp : s.xferPending = true) :
    exec (.xfer width height callback) s = .next (respond .transferAlreadyPending [] s) := by
  rw [exec, execXfer, withLock_holder ho, hp]
  rfl

/-- The completion step clears ENABLE alone, as R208 writes it. -/
theorem setField_enable_zero (v : Word) : setField v 0 0 0 = v &&& ~~~0x00000001#32 :=
  BitVec.or_zero

/-! ## The pending transfer over an operation and over a step -/

/-- All an operation can do to the pending transfer: leave it, or start one where none is pending. -/
theorem Effect.pending_cases {i : Instr} {s t : State} (h : Effect s i t) :
    (t.xferPending = s.xferPending ∧ t.pendingCb = s.pendingCb)
      ∨ (s.issuerHolds ∧ s.xferPending = false
          ∧ ∃ w h c, i = .xfer w h c ∧ t.xferPending = true ∧ t.pendingCb = c) := by
  cases h with
  | startsTransfer ho hp => exact .inr ⟨ho, hp, _, _, _, rfl, rfl, rfl⟩
  | tearsDown => exact .inl (by simp [teardown_eq])
  | configures => exact .inl (by simp [writeFormat_eq])
  | solves => exact .inl (by simp [writeTiming_eq])
  | _ => exact .inl ⟨rfl, rfl⟩

/-- All a step can do to the pending transfer: leave it, start one by an accepted XFER, or end it by a FRAME_DONE or a
reset. -/
theorem step_pending_cases {s t : State} (hstep : step s = .next t) :
    (t.xferPending = s.xferPending ∧ t.pendingCb = s.pendingCb)
      ∨ (∃ r u w h c, Serves s r (.xfer w h c) u ∧ s.owner = some r ∧ s.xferPending = false
          ∧ t.xferPending = true ∧ t.pendingCb = c)
      ∨ ((s.schedule.head? = some .frameDone ∨ s.schedule.head? = some .reset) ∧ t.pendingCb = none) := by
  rcases step_next hstep with ⟨-, rfl⟩ | ⟨u, ts, hs, hturn⟩
  · exact .inl ⟨rfl, rfl⟩
  · rcases hturn with ⟨r, i, s', rfl, hf, he⟩ | ⟨r, s', -, hf, rfl⟩ | ⟨w, -, hg⟩ | ⟨rfl, rfl⟩ | ⟨rfl, rfl⟩
    · have hserves := serves_of_fetch hs hf
      obtain ⟨-, -, rest, -, rfl⟩ := fetch_run hf
      rcases (exec_effect he).pending_cases with hkeeps | ⟨ho, hp, w, h, c, rfl, hpending, hcb⟩
      · exact .inl hkeeps
      · exact .inr (.inl ⟨r, _, w, h, c, hserves, ho, hp, hpending, hcb⟩)
    · obtain ⟨-, -, _, _, -, rfl⟩ := fetch_illegal hf
      exact .inl ⟨rfl, rfl⟩
    · obtain ⟨-, -, rfl⟩ := grantStep_next hg
      exact .inl ⟨rfl, rfl⟩
    · exact .inr (.inr ⟨.inl (by rw [hs]; rfl), by rw [completionStep_eq]⟩)
    · exact .inr (.inr ⟨.inr (by rw [hs]; rfl), rfl⟩)

/-! ## Callback events -/

/-- The event calls a completion callback. -/
def Event.isCallback : Event → Bool
  | .callback _ _ => true
  | _ => false

/-- The callbacks emitted so far, oldest first. -/
def State.callbacks (s : State) : List Event := s.trace.filter Event.isCallback

theorem callbacks_of_trace_eq {s t : State} (h : t.trace = s.trace) : t.callbacks = s.callbacks := by
  rw [State.callbacks, State.callbacks, h]

/-- Appended events are no callbacks when the list of callbacks did not change. -/
theorem not_isCallback_of_callbacks_eq {s t : State} {es : List Event} (h : t.callbacks = s.callbacks)
    (ht : t.trace = s.trace ++ es) : ∀ e ∈ es, ¬ e.isCallback = true := by
  rw [State.callbacks, State.callbacks, ht, List.filter_append, List.append_right_eq_self] at h
  exact List.filter_eq_nil_iff.mp h

theorem callbacks_emit {e : Event} (he : e.isCallback = false) (s : State) : (emit e s).callbacks = s.callbacks := by
  rw [State.callbacks, emit_trace, List.filter_append, List.filter_cons_of_neg (by simp [he]), List.filter_nil,
    List.append_nil, State.callbacks]

@[simp] theorem callbacks_respond (status : Status) (bytes : List Byte) (s : State) :
    (respond status bytes s).callbacks = s.callbacks := callbacks_emit rfl s

@[simp] theorem callbacks_setFault (s : State) : (setFault s).callbacks = s.callbacks := rfl

/-! ### The accesses and calls of each operation -/

theorem regValue_trace (r : Reg) (s : State) : (regValue r s).2.trace = s.trace := by
  cases r with
  | read => simp only [regValue, envRead]; split <;> rfl
  | _ => rfl

@[simp] theorem callbacks_readUnit (s : State) : (readUnit s).2.callbacks = s.callbacks := by
  simp [readUnit, regRead, State.callbacks, Event.isCallback, regValue_trace]

@[simp] theorem callbacks_readUnits (u : UnitSize) (k : Nat) (s : State) :
    (readUnits u k s).2.callbacks = s.callbacks := by
  induction k generalizing s with
  | zero => rfl
  | succ k ih => rw [readUnits, ih, callbacks_readUnit]

theorem callbacks_writeUnits {r : Reg} (hr : r.stores = false) (ws : List Word) (s : State) :
    (writeUnits r ws s).callbacks = s.callbacks := by
  simp [State.callbacks, Event.isCallback, writeUnits_port hr]

@[simp] theorem callbacks_writeTransfer (width height : Half) (s : State) :
    (writeTransfer width height s).callbacks = s.callbacks := by
  simp [State.callbacks, Event.isCallback, writeTransfer_eq]

@[simp] theorem callbacks_writeFormat (n : Channel) (w : FormatWords) (s : State) :
    (writeFormat n w s).callbacks = s.callbacks := by
  simp [State.callbacks, Event.isCallback, writeFormat_eq]

@[simp] theorem callbacks_writeTiming (n : Channel) (timing : SolvedTiming) (s : State) :
    (writeTiming n timing s).callbacks = s.callbacks := by
  simp [State.callbacks, Event.isCallback, writeTiming_eq]

@[simp] theorem callbacks_teardown (s : State) : (teardown s).callbacks = s.callbacks := by
  simp only [State.callbacks, teardown_eq]
  split <;> split <;> simp [Event.isCallback]

@[simp] theorem callbacks_releasePower (s : State) : (releasePower s).callbacks = s.callbacks :=
  callbacks_emit (e := .powerRelease) rfl { s with powerRefs := s.powerRefs - 1 }

@[simp] theorem callbacks_registerHandler (s : State) : (registerHandler s).callbacks = s.callbacks :=
  callbacks_emit (e := .handlerRegister) rfl (setHandlerRegistered true s)

@[simp] theorem callbacks_rollback (s : State) : (rollback s).callbacks = s.callbacks := by
  rw [rollback, callbacks_releasePower]
  exact callbacks_emit (e := .handlerUnregister) rfl (setHandlerRegistered false s)

@[simp] theorem callbacks_powerHeld (s : State) : (powerHeld s).callbacks = s.callbacks := by
  obtain ⟨ok, oks, d, hp⟩ := envPower_frame s
  simp [State.callbacks, Event.isCallback, powerHeld, acquirePower, hp]

/-! ### An operation and a step -/

section
variable {n : Channel} {fmt : BusFormat} {req : TimingReq} {clk : ClockContext} {s t : State}

theorem enableChannel_callbacks (h : enableChannel n fmt req clk s = .next t) : t.callbacks = s.callbacks := by
  unfold enableChannel at h
  rcases configureBody_cases n fmt.depth fmt.lines s with ⟨e, -, hc⟩ | ⟨w, -, hc⟩ <;> rw [hc] at h <;> dsimp only at h
  · cases h
    simp
  · rcases solveBody_cases n req clk (writeFormat n w s) with ⟨-, hs⟩ | ⟨r, -, hs⟩ <;> rw [hs] at h <;> cases h
    · calc (respond .timingUnsatisfiable [] (rollback (clearConverted n (writeFormat n w s)))).callbacks
        _ = (clearConverted n (writeFormat n w s)).callbacks := by rw [callbacks_respond, callbacks_rollback]
        _ = (writeFormat n w s).callbacks := callbacks_of_trace_eq rfl
        _ = s.callbacks := callbacks_writeFormat n w s
    · have htiming := callbacks_writeTiming n (solvedOf r)
        { writeFormat n w s with solved := (writeFormat n w s).solved.set n (solvedOf r) }
      rw [callbacks_respond]
      exact ((callbacks_emit (e := .mgrSetTimings n) rfl _).trans htiming).trans (callbacks_writeFormat n w s)

theorem enableBody_callbacks (h : enableBody n fmt req clk s = .next t) : t.callbacks = s.callbacks := by
  cases hpower : (envPower s).1 with
  | false =>
    rw [enableBody_power_refused n fmt req clk hpower] at h
    cases h
    rw [callbacks_respond]
    exact callbacks_powerHeld s
  | true =>
    cases hhandler : s.handlerRegistered with
    | true =>
      rw [enableBody_handler_taken n fmt req clk hpower hhandler] at h
      cases h
      simp
    | false =>
      rw [enableBody_handler_free n fmt req clk hpower hhandler] at h
      rw [enableChannel_callbacks h, callbacks_registerHandler, callbacks_powerHeld]

end

theorem withLock_callbacks {body : State → Result} {s t : State} (hbody : body s = .next t → t.callbacks = s.callbacks)
    (h : withLock body s = .next t) : t.callbacks = s.callbacks := by
  rcases withLock_next h with ⟨-, hb⟩ | ⟨-, rfl⟩
  · exact hbody hb
  · exact callbacks_setFault s

theorem withStream_callbacks {len : Nat} {body : UnitSize → State → Result} {s t : State}
    (hbody : ∀ u, body u s = .next t → t.callbacks = s.callbacks) (h : withStream len body s = .next t) :
    t.callbacks = s.callbacks := by
  rcases withStream_next h with ⟨-, rfl⟩ | ⟨-, e, -, rfl⟩ | ⟨-, u, -, hb⟩
  · exact callbacks_setFault s
  · exact callbacks_respond e [] s
  · exact hbody u hb

/-- No operation calls a callback (43_transfer_engine.md R208). -/
theorem exec_callbacks {i : Instr} {s t : State} (h : exec i s = .next t) : t.callbacks = s.callbacks := by
  cases i <;> simp only [exec] at h
  case lock =>
    unfold execLock at h
    split at h <;> cases h
    · exact callbacks_respond .ok [] _
    · exact callbacks_of_trace_eq rfl
  case unlock =>
    unfold execUnlock at h
    split at h <;> cases h <;> exact callbacks_respond .ok [] _
  case enable n =>
    refine withLock_callbacks (fun hb => ?_) h
    split at hb
    · exact enableBody_callbacks hb
    · cases hb
  case disable =>
    refine withLock_callbacks (fun hb => ?_) h
    cases hb
    rw [callbacks_respond, callbacks_teardown]
  case setclk rate =>
    unfold execSetclk at h
    split at h <;> cases h
    exact callbacks_respond .ok [] _
  case setreq => cases h; exact callbacks_respond .ok [] _
  case setfmt => cases h; exact callbacks_respond .ok [] _
  case sette => cases h; exact callbacks_respond .ok [] _
  case configure n depth lines =>
    refine withLock_callbacks (fun hb => ?_) h
    rcases configureBody_cases n depth lines s with ⟨e, -, hc⟩ | ⟨w, -, hc⟩ <;> rw [hc] at hb <;> cases hb
    · exact callbacks_respond e [] s
    · rw [callbacks_respond, callbacks_writeFormat]
  case solve n =>
    refine withLock_callbacks (fun hb => ?_) h
    split at hb
    · next clk req _ _ =>
      rcases solveBody_cases n req clk s with ⟨-, he⟩ | ⟨r, -, he⟩ <;> rw [he] at hb <;> cases hb
      · exact callbacks_respond .timingUnsatisfiable [] _
      · rw [callbacks_respond, callbacks_writeTiming]
        exact callbacks_of_trace_eq rfl
    · cases hb
  case wrcmd bytes =>
    refine withStream_callbacks (fun u hb => ?_) h
    cases hb
    rw [callbacks_respond, callbacks_writeUnits rfl]
  case wrdata bytes =>
    refine withStream_callbacks (fun u hb => ?_) h
    cases hb
    rw [callbacks_respond, callbacks_writeUnits rfl]
  case rddata len =>
    refine withStream_callbacks (fun u hb => ?_) h
    cases hb
    rw [callbacks_respond, callbacks_readUnits]
  case xfer width height callback =>
    refine withLock_callbacks (fun hb => ?_) h
    split at hb <;> cases hb
    · exact callbacks_respond .transferAlreadyPending [] s
    · rw [callbacks_respond]
      exact callbacks_writeTransfer width height s

/-- A step that is neither a reset nor a FRAME_DONE calls no callback. -/
theorem step_callbacks {s t : State} (hstep : step s = .next t) (hr : s.schedule.head? ≠ some .reset)
    (hf : s.schedule.head? ≠ some .frameDone) : t.callbacks = s.callbacks := by
  rcases step_next hstep with ⟨-, rfl⟩ | ⟨u, ts, hs, hturn⟩
  · rfl
  · rcases hturn with ⟨r, i, s', -, hfetch, he⟩ | ⟨r, s', -, hfetch, rfl⟩ | ⟨w, -, hg⟩ | ⟨rfl, -⟩ | ⟨rfl, -⟩
    · obtain ⟨-, -, rest, -, rfl⟩ := fetch_run hfetch
      exact (exec_callbacks he).trans (callbacks_of_trace_eq rfl)
    · obtain ⟨-, -, _, _, -, rfl⟩ := fetch_illegal hfetch
      exact callbacks_respond .illegalCommand [] _
    · obtain ⟨-, -, rfl⟩ := grantStep_next hg
      exact callbacks_emit (e := .resp w .ok []) rfl s
    · exact absurd (by rw [hs]; rfl) hf
    · exact absurd (by rw [hs]; rfl) hr

theorem step_of_frameDone {s : State} {ts : List Turn} (hs : s.schedule = .frameDone :: ts) :
    step s = .next (completionStep { s with schedule := ts }) := by
  rw [step_of_schedule hs, turn]

/-- The callback a FRAME_DONE emits is the stored one. -/
theorem pendingCb_of_frameDone_callback {s t : State} {es : List Event} {cb ctx : Word} (hstep : step s = .next t)
    (hf : s.schedule.head? = some .frameDone) (ht : t.trace = s.trace ++ es) (hmem : .callback cb ctx ∈ es) :
    s.pendingCb = some ⟨cb, ctx⟩ := by
  obtain ⟨ts, hs⟩ := List.head?_eq_some_iff.mp hf
  rw [step_of_frameDone hs] at hstep
  cases hstep
  rw [completionStep_eq, List.append_assoc] at ht
  obtain rfl := List.append_cancel_left ht
  cases hcb : s.pendingCb with
  | none => simp [hcb] at hmem
  | some c =>
    have hsame : cb = c.cb ∧ ctx = c.ctx := by simpa [hcb] using hmem
    rw [hsame.1, hsame.2]

end Sys2Proof.Machine
end

section
/-! The statements of the family 43_transfer_engine.md: streams, XFER and its completion. -/

namespace Sys2Proof.Machine

/-- Settles O39. -/
theorem unitsOfABuffer : Obligations.UnitsOfABuffer := by
  intro bs
  refine ⟨List.length_map _, fun i h => ?_, halfUnits_length bs, halfUnits_getElem? bs⟩
  rw [streamUnits, byteUnits, List.getElem?_map, List.getElem?_eq_getElem h, Option.map_some, zeroExtend_byte]

/-- Settles O40: the mode and the length pass the check, and CMD and DATA are ports that store nothing. -/
theorem writeStreamsMoveUnits : Obligations.WriteStreamsMoveUnits := by
  intro bytes u s ho hmode
  have hc := streamCheck_eq_go_iff.mpr hmode
  rw [exec_wrcmd_go ho hc, exec_wrdata_go ho hc, writeUnits_port rfl, writeUnits_port rfl]
  exact ⟨rfl, rfl⟩

/-- Settles O41: as many answers are named as the length has units. -/
theorem readDataAnswers : Obligations.ReadDataAnswers := by
  intro len u vs rest s ho hmode hanswers
  obtain ⟨hgo, hcount⟩ : streamCheck s.parMode len.toNat = .go u ∧ unitCount u len.toNat = vs.length := by
    rw [streamCheck_eq_go_iff]
    rcases hmode with ⟨hm, rfl, hlen⟩ | ⟨hm, rfl, hlen⟩
    · exact ⟨.inl ⟨hm, rfl⟩, hlen.symm⟩
    · exact ⟨.inr ⟨hm, by omega, rfl⟩, by simp only [unitCount]; omega⟩
  rw [exec_rddata_go ho hgo, hcount, readUnits_answers u vs rest s hanswers]
  cases u <;> rfl

/-- Settles O42. -/
theorem readDataCompletesOnAnyAnswers : Obligations.ReadDataCompletesOnAnyAnswers := by
  intro len s ho hmode
  obtain ⟨u, hc⟩ : ∃ u, streamCheck s.parMode len.toNat = .go u := by
    rcases hmode with hm | ⟨hm, heven⟩
    · exact ⟨.byte, streamCheck_eq_go_iff.mpr (.inl ⟨hm, rfl⟩)⟩
    · exact ⟨.half, streamCheck_eq_go_iff.mpr (.inr ⟨hm, heven, rfl⟩)⟩
  obtain ⟨es, vs, d, hframe⟩ := readUnits_frame u (unitCount u len.toNat) s
  refine ⟨es, (readUnits u (unitCount u len.toNat) s).1, vs, d, readUnits_length_of_go hc s, ?_⟩
  rw [exec_rddata_go ho hc, hframe]
  rfl

/-- Settles O43. -/
theorem failedStreamMovesNothing : Obligations.FailedStreamMovesNothing := by
  refine ⟨fun bytes len s ho hmode => ?mode, fun bytes len s ho hmode => ?length⟩
  case mode =>
    have hc : ∀ k, streamCheck s.parMode k = .stop .unsupportedParallelMode := by
      rcases hmode with hm | hm <;> exact fun k => by rw [hm]; rfl
    obtain ⟨hwrite, hread⟩ := exec_stream_stop (e := .unsupportedParallelMode) ho
    obtain ⟨hcmd, hdata⟩ := hwrite bytes (hc _)
    exact ⟨hcmd, hdata, hread len (hc _)⟩
  case length =>
    have hc : ∀ k, k % 2 = 1 → streamCheck s.parMode k = .stop .misalignedLength := fun k hk => by
      rw [hmode, streamCheck_m16_odd hk]
    obtain ⟨hwrite, hread⟩ := exec_stream_stop (e := .misalignedLength) ho
    exact ⟨fun hodd => hwrite bytes (hc _ hodd), fun hodd => hread len (hc _ hodd)⟩

/-- Settles O44. -/
theorem transferStarts : Obligations.TransferStarts := by
  intro width height callback s ho hp
  rw [exec_xfer_accepted ho hp, writeTransfer_eq]
  simp [respond, emit, setXferPending, controlStarted]

/-- Settles O45: only an accepted XFER, a FRAME_DONE or a reset changes what is pending, and none is accepted meanwhile. -/
theorem secondTransferRefused : Obligations.SecondTransferRefused := by
  refine ⟨?accepted, ?stays, fun w h c s ho hp => exec_xfer_pending ho hp, ?atOnce⟩
  case accepted =>
    intro w h c s ho hp
    exact ⟨_, exec_xfer_accepted ho hp, rfl, rfl⟩
  case stays =>
    intro s t hstep hp hf hr
    rcases step_pending_cases hstep with ⟨hpending, hcb⟩ | ⟨_, _, _, _, _, -, -, hfree, -⟩ | ⟨hturn, -⟩
    · exact ⟨hpending.trans hp, hcb⟩
    · exact absurd hp (by rw [hfree]; decide)
    · exact absurd hturn (not_or.mpr ⟨hf, hr⟩)
  case atOnce =>
    intro w h w' h' c c' s t ho hp hexec
    rw [exec_xfer_accepted ho hp] at hexec
    cases hexec
    rw [writeTransfer_eq]
    exact exec_xfer_pending ho rfl

/-- Settles O47. -/
theorem completionTakesTheCallback : Obligations.CompletionTakesTheCallback := by
  intro s ts hs
  rw [step_of_frameDone hs, completionStep_eq]
  simp only [setField_enable_zero]
  cases s.pendingCb <;> rfl

/-- Settles O48: each clause reads off what a step can do to the stored callback and which steps emit one. -/
theorem atMostOneCallbackPerTransfer : Obligations.AtMostOneCallbackPerTransfer := by
  refine ⟨?stored, ?taken, ?emitted⟩
  case stored =>
    intro s t c hstep hnone hsome
    rcases step_pending_cases hstep with ⟨-, hcb⟩ | ⟨r, u, w, h, c', hserves, ho, hp, -, hcb⟩ | ⟨-, hcb⟩ <;>
      rw [hcb] at hsome
    · rw [hnone] at hsome
      cases hsome
    · subst hsome
      exact ⟨r, u, w, h, hserves, ho, hp⟩
    · cases hsome
  case taken =>
    intro s t hstep hf
    obtain ⟨ts, hs⟩ := List.head?_eq_some_iff.mp hf
    rw [step_of_frameDone hs] at hstep
    cases hstep
    rw [completionStep_eq]
  case emitted =>
    intro s t es cb ctx hstep hr ht hmem
    by_cases hf : s.schedule.head? = some .frameDone
    · exact ⟨hf, pendingCb_of_frameDone_callback hstep hf ht hmem⟩
    · exact absurd rfl (not_isCallback_of_callbacks_eq (step_callbacks hstep hr hf) ht _ hmem)

end Sys2Proof.Machine
end

section
/-! The arbiter: LOCK, UNLOCK and the grant step on each answer, and all a step can do to the holder, the waiters and `enabled`
(spec/44_bus_controller.md R221 to R223, R230). -/

namespace Sys2Proof.Machine

/-! ## LOCK, UNLOCK and the grant step (R221, R222) -/

theorem exec_lock_free {s : State} (ho : s.owner = none) :
    exec .lock s = .next (respond .ok [] { s with owner := some s.issuer }) := by
  rw [exec, execLock, ho]
  rfl

theorem exec_lock_taken {s : State} {o : Nat} (ho : s.owner = some o) :
    exec .lock s = .next { s with waiting := insertWaiter s.issuer s.waiting } := by
  rw [exec, execLock, ho]

theorem exec_unlock_holder {s : State} (ho : s.issuerHolds) :
    exec .unlock s = .next (respond .ok [] { s with owner := none }) := by
  rw [exec, execUnlock, if_pos ho, finish]

theorem exec_unlock_other {s : State} (ho : ¬ s.issuerHolds) : exec .unlock s = .next (respond .ok [] s) := by
  rw [exec, execUnlock, if_neg ho, finish]

theorem grantStep_free {w : Nat} {s : State} (ho : s.owner = none) (hw : w ∈ s.waiting) :
    grantStep w s = .next { s with
      waiting := removeWaiter w s.waiting, owner := some w, trace := s.trace ++ [.resp w .ok []] } := by
  rw [grantStep, ho]
  exact if_pos hw

theorem grantStep_taken {s : State} {o : Nat} (ho : s.owner = some o) (w : Nat) : grantStep w s = .fault .lockHeld := by
  rw [grantStep, ho]

/-! ## What an operation does to the lock and to `enabled` -/

/-- All an operation can do to the holder: leave it, take a free lock, or release its own. -/
theorem Effect.owner_cases {i : Instr} {s t : State} (h : Effect s i t) :
    t.owner = s.owner
      ∨ (i = .lock ∧ s.owner = none ∧ t.owner = some s.issuer)
      ∨ (i = .unlock ∧ s.issuerHolds ∧ t.owner = none) := by
  cases h with
  | takesLock ho => exact .inr (.inl ⟨rfl, ho, rfl⟩)
  | releasesLock ho => exact .inr (.inr ⟨rfl, ho, rfl⟩)
  | tearsDown => exact .inl (by simp [teardown_eq])
  | configures => exact .inl (by simp [writeFormat_eq])
  | solves => exact .inl (by simp [writeTiming_eq])
  | startsTransfer => exact .inl (by simp [writeTransfer_eq])
  | _ => exact .inl rfl

/-- All an operation can do to `enabled`: leave it, set it by the holder's ENABLE, or clear it by the holder's DISABLE. -/
theorem Effect.enabled_cases {i : Instr} {s t : State} (h : Effect s i t) :
    t.enabled = s.enabled
      ∨ (s.issuerHolds ∧ ∃ n, i = .enable n ∧ t.enabled = true)
      ∨ (s.issuerHolds ∧ i = .disable ∧ t.enabled = false) := by
  cases h with
  | enables _ _ _ ho => exact .inr (.inl ⟨ho, _, rfl, rfl⟩)
  | tearsDown ho => exact .inr (.inr ⟨ho, rfl, by simp [teardown_eq]⟩)
  | configures => exact .inl (by simp [writeFormat_eq])
  | solves => exact .inl (by simp [writeTiming_eq])
  | startsTransfer => exact .inl (by simp [writeTransfer_eq])
  | _ => exact .inl rfl

/-- No operation takes a requester out of `waiting`; only a grant does (R221). -/
theorem Effect.waiting_subset {i : Instr} {s t : State} (h : Effect s i t) : s.waiting ⊆ t.waiting := by
  cases h with
  | waits => exact fun w hw => mem_insertWaiter.mpr (.inr hw)
  | tearsDown => simp [teardown_eq]
  | configures => simp [writeFormat_eq]
  | solves => simp [writeTiming_eq]
  | startsTransfer => simp [writeTransfer_eq]
  | _ => exact List.Subset.refl _

/-! ## A step by its effect -/

/-- All one step can do, an operation by its effect: change nothing but the trace, the issuer and the inputs (an empty schedule,
an illegal packet), run a served operation, grant, complete, or reset. -/
theorem step_effect {s t : State} (hstep : step s = .next t) :
    (∃ ts es r ports, t = { s with schedule := ts, trace := s.trace ++ es, issuer := r, ports := ports })
      ∨ (∃ r i u, Serves s r i u ∧ Effect u i t)
      ∨ (∃ w ts, s.schedule = .grant w :: ts ∧ s.owner = none ∧ w ∈ s.waiting
          ∧ t = { s with
              schedule := ts, waiting := removeWaiter w s.waiting, owner := some w,
              trace := s.trace ++ [.resp w .ok []] })
      ∨ (∃ ts, s.schedule = .frameDone :: ts ∧ t = completionStep { s with schedule := ts })
      ∨ ∃ ts, s.schedule = .reset :: ts ∧ t = resetEvent { s with schedule := ts } := by
  rcases step_next hstep with ⟨-, rfl⟩ | ⟨u, ts, hs, hturn⟩
  · exact .inl ⟨t.schedule, [], t.issuer, t.ports, by rw [List.append_nil]⟩
  · rcases hturn with ⟨r, i, u, rfl, hf, he⟩ | ⟨r, u, -, hf, rfl⟩ | ⟨w, rfl, hg⟩ | ⟨rfl, rfl⟩ | ⟨rfl, rfl⟩
    · exact .inr (.inl ⟨r, i, u, serves_of_fetch hs hf, exec_effect he⟩)
    · obtain ⟨-, -, _, rest, -, rfl⟩ := fetch_illegal hf
      exact .inl ⟨ts, [.resp r .illegalCommand []], r, putPort s.ports r rest, rfl⟩
    · obtain ⟨ho, hw, rfl⟩ := grantStep_next hg
      exact .inr (.inr (.inl ⟨w, ts, hs, ho, hw, rfl⟩))
    · exact .inr (.inr (.inr (.inl ⟨ts, hs, rfl⟩)))
    · exact .inr (.inr (.inr (.inr ⟨ts, hs, rfl⟩)))

section
variable {s u : State} {r : Nat} {i : Instr} (h : Serves s r i u)
include h

theorem Serves.not_waiting : r ∉ s.waiting := by
  obtain ⟨ts, rest, -, -, hw, -, -⟩ := h
  exact hw

/-- Serving a requester makes it the issuer and leaves the lock, the waiters and `enabled` for the operation to change. -/
theorem Serves.controller_eq :
    u.issuer = r ∧ u.owner = s.owner ∧ u.waiting = s.waiting ∧ u.enabled = s.enabled := by
  obtain ⟨ts, rest, -, -, -, -, rfl⟩ := h
  exact ⟨rfl, rfl, rfl, rfl⟩

end

/-- All a step can do to the holder (R230). -/
theorem step_owner_cases {s t : State} (hstep : step s = .next t) :
    t.owner = s.owner
      ∨ (∃ r u, Serves s r .lock u ∧ s.owner = none ∧ t.owner = some r)
      ∨ (∃ r u, Serves s r .unlock u ∧ s.owner = some r ∧ t.owner = none)
      ∨ (∃ w, s.schedule.head? = some (.grant w) ∧ s.owner = none ∧ w ∈ s.waiting ∧ t.owner = some w)
      ∨ (s.schedule.head? = some .reset ∧ t.owner = none) := by
  rcases step_effect hstep with
    ⟨ts, es, r, ports, rfl⟩ | ⟨r, i, u, hserves, heff⟩ | ⟨w, ts, hs, ho, hw, rfl⟩ | ⟨ts, hs, rfl⟩ | ⟨ts, hs, rfl⟩
  · exact .inl rfl
  · obtain ⟨hissuer, howner, -, -⟩ := hserves.controller_eq
    rcases heff.owner_cases with hkeeps | ⟨rfl, ho, ht⟩ | ⟨rfl, ho, ht⟩
    · exact .inl (hkeeps.trans howner)
    · exact .inr (.inl ⟨r, u, hserves, howner ▸ ho, hissuer ▸ ht⟩)
    · rw [State.issuerHolds, howner, hissuer] at ho
      exact .inr (.inr (.inl ⟨r, u, hserves, ho, ht⟩))
  · exact .inr (.inr (.inr (.inl ⟨w, by rw [hs]; rfl, ho, hw, rfl⟩)))
  · exact .inl (by rw [completionStep_eq])
  · exact .inr (.inr (.inr (.inr ⟨by rw [hs]; rfl, rfl⟩)))

/-- All a step can do to `enabled` (R230, 10_state.md R28). -/
theorem step_enabled_cases {s t : State} (hstep : step s = .next t) :
    t.enabled = s.enabled
      ∨ (∃ r n u, Serves s r (.enable n) u ∧ s.owner = some r ∧ t.enabled = true)
      ∨ (∃ r u, Serves s r .disable u ∧ s.owner = some r ∧ t.enabled = false)
      ∨ (s.schedule.head? = some .reset ∧ t.enabled = false) := by
  rcases step_effect hstep with
    ⟨ts, es, r, ports, rfl⟩ | ⟨r, i, u, hserves, heff⟩ | ⟨w, ts, -, -, -, rfl⟩ | ⟨ts, hs, rfl⟩ | ⟨ts, hs, rfl⟩
  · exact .inl rfl
  · obtain ⟨hissuer, howner, -, henabled⟩ := hserves.controller_eq
    have hholder : u.issuerHolds → s.owner = some r := fun ho => by rw [← howner, ← hissuer, ho]
    rcases heff.enabled_cases with hkeeps | ⟨ho, n, rfl, ht⟩ | ⟨ho, rfl, ht⟩
    · exact .inl (hkeeps.trans henabled)
    · exact .inr (.inl ⟨r, n, u, hserves, hholder ho, ht⟩)
    · exact .inr (.inr (.inl ⟨r, u, hserves, hholder ho, ht⟩))
  · exact .inl rfl
  · exact .inl (by rw [completionStep_eq])
  · exact .inr (.inr (.inr ⟨by rw [hs]; rfl, rfl⟩))

/-- A waiter leaves `waiting` only by its grant, on a free lock, or by a reset (R221). -/
theorem step_keeps_waiter {s t : State} {r o : Nat} (hstep : step s = .next t) (ho : s.owner = some o)
    (hw : r ∈ s.waiting) (hr : s.schedule.head? ≠ some .reset) : r ∈ t.waiting := by
  rcases step_effect hstep with
    ⟨ts, es, q, ports, rfl⟩ | ⟨q, i, u, hserves, heff⟩ | ⟨w, ts, -, hfree, -⟩ | ⟨ts, -, rfl⟩ | ⟨ts, hs, -⟩
  · exact hw
  · obtain ⟨-, -, hwaiting, -⟩ := hserves.controller_eq
    exact heff.waiting_subset (hwaiting ▸ hw)
  · exact absurd (ho.symm.trans hfree) (Option.some_ne_none o)
  · rw [completionStep_eq]
    exact hw
  · exact absurd (by rw [hs]; rfl) hr

/-- A holder that waits issues no UNLOCK, so it keeps the lock until a reset (R223). -/
theorem step_keeps_waiting_holder {s t : State} {r : Nat} (hstep : step s = .next t) (ho : s.owner = some r)
    (hw : r ∈ s.waiting) (hr : s.schedule.head? ≠ some .reset) : t.owner = some r := by
  have hheld : s.owner ≠ none := ho ▸ Option.some_ne_none r
  rcases step_owner_cases hstep with
    hkeeps | ⟨_, _, -, hfree, -⟩ | ⟨q, u, hserves, hq, -⟩ | ⟨_, -, hfree, -⟩ | ⟨hreset, -⟩
  · exact hkeeps.trans ho
  · exact absurd hfree hheld
  · obtain rfl : q = r := Option.some.inj (hq.symm.trans ho)
    exact absurd hw hserves.not_waiting
  · exact absurd hfree hheld
  · exact absurd hreset hr

end Sys2Proof.Machine
end

section
/-! ENABLE on each answer, step by step, what it leaves of the other channel, and DISABLE (spec/44_bus_controller.md R224 to
R228). -/

namespace Sys2Proof.Machine

/-! ## The power (R224, step 1) -/

theorem acquirePower_of_answer {s : State} {ok : Bool} {oks : List Bool} (h : s.powerAnswers = ok :: oks) :
    (acquirePower s).2 = { s with powerAnswers := oks, trace := s.trace ++ [.powerAcquire ok] } := by
  simp [acquirePower, envPower, h, emit]

theorem powerHeld_of_answer {s : State} {oks : List Bool} (h : s.powerAnswers = true :: oks) :
    powerHeld s = { s with
      powerAnswers := oks, powerRefs := s.powerRefs + 1, trace := s.trace ++ [.powerAcquire true] } := by
  rw [powerHeld, acquirePower_of_answer h]

/-! ## The handler and the rollback (R224, R225) -/

theorem registerHandler_eq (s : State) :
    registerHandler s = { s with handlerRegistered := true, trace := s.trace ++ [.handlerRegister] } := rfl

theorem rollback_eq (s : State) :
    rollback s = { s with
      handlerRegistered := false, powerRefs := s.powerRefs - 1,
      trace := s.trace ++ [.handlerUnregister, .powerRelease] } := by
  simp [rollback, releasePower, unregisterHandler, setHandlerRegistered, emit]

/-! ## From the formatter on (R224, steps 3 to 5) -/

section
variable {n : Channel} {fmt : BusFormat} {req : TimingReq} {clk : ClockContext} {s : State}

theorem enableChannel_format_refused {e : Status}
    (he : formatWords s.params.layout fmt.depth.toNat fmt.lines.toNat = .error e) :
    enableChannel n fmt req clk s = .next (respond e [] (rollback s)) := by
  rw [enableChannel, configureBody, he]
  rfl

theorem enableChannel_unsatisfiable {w : FormatWords}
    (hw : formatWords s.params.layout fmt.depth.toNat fmt.lines.toNat = .ok w)
    (hr : solve req clk.periodPs Config.maxDiv = none) :
    enableChannel n fmt req clk s =
      .next (respond .timingUnsatisfiable [] (rollback (clearConverted n (writeFormat n w s)))) := by
  simp only [enableChannel, configureBody, hw, solveBody, hr, finish]

theorem enableChannel_solved {w : FormatWords} {r : Solution}
    (hw : formatWords s.params.layout fmt.depth.toNat fmt.lines.toNat = .ok w)
    (hr : solve req clk.periodPs Config.maxDiv = some r) :
    enableChannel n fmt req clk s =
      .next (respond .ok [] (setEnabled true (emit (.mgrSetTimings n) (writeTiming n (solvedOf r)
        { writeFormat n w s with solved := s.solved.set n (solvedOf r) })))) := by
  simp only [enableChannel, configureBody, hw, solveBody, hr, finish, writeFormat_eq]

end

/-! ## ENABLE with its parameters loaded -/

section
variable {n : Channel} {clk : ClockContext} {fmt : BusFormat} {req : TimingReq} {s : State} (ho : s.issuerHolds)
  (hclk : s.clk = some clk) (hfmt : s.fmt.get n = some fmt) (hreq : s.req.get n = some req)
include ho hclk hfmt hreq

theorem exec_enable_loaded : exec (.enable n) s = enableBody n fmt req clk s := by
  simp only [exec, execEnable, withLock_holder ho, hclk, hfmt, hreq]

variable {oks : List Bool}

theorem exec_enable_power_refused (hp : s.powerAnswers = false :: oks) :
    exec (.enable n) s = .next (respond .powerResourceUnavailable [] (acquirePower s).2) := by
  rw [exec_enable_loaded ho hclk hfmt hreq, enableBody_power_refused n fmt req clk (envPower_of_answer hp)]

variable (hp : s.powerAnswers = true :: oks)
include hp

theorem exec_enable_handler_taken (hh : s.handlerRegistered = true) :
    exec (.enable n) s = .next (respond .handlerRegistrationFailed [] (releasePower (powerHeld s))) := by
  rw [exec_enable_loaded ho hclk hfmt hreq, enableBody_handler_taken n fmt req clk (envPower_of_answer hp) hh]

theorem exec_enable_handler_free (hh : s.handlerRegistered = false) :
    exec (.enable n) s = enableChannel n fmt req clk (registerHandler (powerHeld s)) := by
  rw [exec_enable_loaded ho hclk hfmt hreq, enableBody_handler_free n fmt req clk (envPower_of_answer hp) hh]

end

/-! ## The other channel -/

/-- PIXEL_CNT and the six registers of every channel but `n` hold the same words. -/
def RegFile.AgreeOutside (n : Channel) (f g : RegFile) : Prop :=
  g.pixelCnt = f.pixelCnt
    ∧ ∀ m, m ≠ n → g.config.get m = f.config.get m ∧ g.onoffTime.get m = f.onoffTime.get m
        ∧ g.cycleTime.get m = f.cycleTime.get m ∧ g.dataCycle1.get m = f.dataCycle1.get m
        ∧ g.dataCycle2.get m = f.dataCycle2.get m ∧ g.dataCycle3.get m = f.dataCycle3.get m

theorem RegFile.AgreeOutside.refl (n : Channel) (f : RegFile) : f.AgreeOutside n f :=
  ⟨rfl, fun _ _ => ⟨rfl, rfl, rfl, rfl, rfl, rfl⟩⟩

theorem RegFile.AgreeOutside.trans {n : Channel} {f g k : RegFile} (h : f.AgreeOutside n g) (h' : g.AgreeOutside n k) :
    f.AgreeOutside n k := by
  obtain ⟨hpixel, hregs⟩ := h
  obtain ⟨hpixel', hregs'⟩ := h'
  refine ⟨hpixel'.trans hpixel, fun m hm => ?_⟩
  obtain ⟨hconfig, honoff, hcycle, h1, h2, h3⟩ := hregs' m hm
  rw [hconfig, honoff, hcycle, h1, h2, h3]
  exact hregs m hm

theorem writeFormat_agreeOutside (n : Channel) (w : FormatWords) (s : State) :
    s.regs.AgreeOutside n (writeFormat n w s).regs := by
  rw [writeFormat_eq]
  exact ⟨rfl, fun m hm => ⟨PerChannel.get_set_other _ hm _, rfl, rfl, PerChannel.get_set_other _ hm _,
    PerChannel.get_set_other _ hm _, PerChannel.get_set_other _ hm _⟩⟩

theorem writeTiming_agreeOutside (n : Channel) (timing : SolvedTiming) (s : State) :
    s.regs.AgreeOutside n (writeTiming n timing s).regs := by
  rw [writeTiming_eq]
  exact ⟨rfl, fun m hm => ⟨PerChannel.get_set_other _ hm _, PerChannel.get_set_other _ hm _,
    PerChannel.get_set_other _ hm _, rfl, rfl, rfl⟩⟩

/-- ENABLE with its parameters loaded ends in a next state that differs from `s` in these components at most (R224). -/
theorem enableBody_frame (n : Channel) (fmt : BusFormat) (req : TimingReq) (clk : ClockContext) (s : State) :
    ∃ timing f mode en reg refs oks d es, s.regs.AgreeOutside n f
      ∧ enableBody n fmt req clk s = .next { s with
          solved := s.solved.set n timing, regs := f, parMode := mode, enabled := en, handlerRegistered := reg,
          powerRefs := refs, powerAnswers := oks, draws := d, trace := s.trace ++ es } := by
  obtain ⟨oks, d, es, he | ⟨w, -, -, ⟨timing, -, he⟩ | ⟨r, -, he⟩⟩⟩ := enableBody_cases n fmt req clk s
  · exact ⟨s.solved.get n, _, _, _, _, _, oks, d, es, .refl n s.regs, by rw [he, PerChannel.set_get]⟩
  · have hagree := writeFormat_agreeOutside n w s
    simp only [writeFormat_eq] at hagree he
    exact ⟨timing, _, _, _, _, _, oks, d, es, hagree, he⟩
  · have hagree := (writeFormat_agreeOutside n w s).trans (writeTiming_agreeOutside n (solvedOf r) (writeFormat n w s))
    simp only [writeTiming_eq, writeFormat_eq] at hagree he
    exact ⟨solvedOf r, _, _, _, _, _, oks, d, es, hagree, he⟩

/-! ## DISABLE (R228) -/

theorem exec_disable {s : State} (ho : s.issuerHolds) : exec .disable s = .next (respond .ok [] (teardown s)) := by
  rw [exec, execDisable, withLock_holder ho, finish]

end Sys2Proof.Machine
end

section
/-! The statements of the family 44_bus_controller.md: the lock, ENABLE and DISABLE. -/

namespace Sys2Proof.Machine

/-- Settles O12. -/
theorem lockRequestAndGrant : Obligations.LockRequestAndGrant := by
  refine ⟨fun s => exec_lock_free, fun s o ho => ⟨_, exec_lock_taken ho, fun w => mem_insertWaiter⟩, ?grants, ?onlyIf⟩
  case grants =>
    intro s w ts hs ho hw
    refine ⟨removeWaiter w s.waiting, ?_, fun v => mem_removeWaiter⟩
    rw [step_of_schedule hs, turn]
    exact grantStep_free (s := { s with schedule := ts }) ho hw
  case onlyIf =>
    intro s t w ts hs hstep
    rw [step_of_schedule hs, turn] at hstep
    obtain ⟨ho, hw, -⟩ := grantStep_next hstep
    exact ⟨ho, hw⟩

/-- Settles O13. -/
theorem unlockReleasesFromHolderOnly : Obligations.UnlockReleasesFromHolderOnly :=
  ⟨fun _ => exec_unlock_holder, fun _ => exec_unlock_other⟩

/-- Settles O14: a waiting requester is served nothing, so the holder never comes to its UNLOCK. -/
theorem holderLockDeadlocks : Obligations.HolderLockDeadlocks := by
  refine ⟨fun s ho => ⟨_, exec_lock_taken ho, ho, mem_insertWaiter.mpr (.inl rfl)⟩, ?stays, ?noGrant⟩
  case stays =>
    intro s t r ho hw hr hstep
    exact ⟨step_keeps_waiting_holder hstep ho hw hr, step_keeps_waiter hstep ho hw hr⟩
  case noGrant =>
    intro s r w ho _ hgrant
    obtain ⟨ts, hs⟩ := List.head?_eq_some_iff.mp hgrant
    rw [step_of_schedule hs, turn]
    exact grantStep_taken (s := { s with schedule := ts }) ho w

/-- Settles O15. -/
theorem controllerTransitions : Obligations.ControllerTransitions :=
  ⟨fun _ _ hstep hne => (step_owner_cases hstep).resolve_left hne,
    fun _ _ hstep hne => (step_enabled_cases hstep).resolve_left hne⟩

/-- Settles O50: the power and the handler, then the formatter's writes, then those of a solution whose divider is 1 or 2. -/
theorem enableBringsUpTheChannel : Obligations.EnableBringsUpTheChannel := by
  intro n clk fmt req w r oks s ho hclk hfmt hreq hp hh hw hr config deselected selected
  have hw' : formatWords (registerHandler (powerHeld s)).params.layout fmt.depth.toNat fmt.lines.toNat = .ok w := by
    simpa using hw
  obtain ⟨-, hdiv, -⟩ := solve_some hr
  rw [exec_enable_handler_free ho hclk hfmt hreq hp hh, enableChannel_solved hw' hr, writeTiming_eq, writeFormat_eq,
    powerHeld_of_answer hp, show (solvedOf r).gran = BitVec.ofNat 1 (r.div - 1) from rfl, gran_zeroExtend (by omega)]
  simp [registerHandler_eq, respond, emit, setEnabled, channelOffset, solvedOf, config, deselected, selected]

/-- Settles O51: each failing answer in turn, and the rollback after it. -/
theorem failedEnableRollsBack : Obligations.FailedEnableRollsBack := by
  intro n clk fmt req oks s ho hclk hfmt hreq
  refine ⟨fun hp => ?power, fun hp hh => ?handler, fun e hp hh he => ?format, fun w hp hh hw hr => ?timing⟩
  case power =>
    rw [exec_enable_power_refused ho hclk hfmt hreq hp, acquirePower_of_answer hp]
    simp [respond, emit]
  case handler =>
    rw [exec_enable_handler_taken ho hclk hfmt hreq hp hh, powerHeld_of_answer hp]
    simp [respond, emit, releasePower]
  case format =>
    rw [exec_enable_handler_free ho hclk hfmt hreq hp hh, enableChannel_format_refused (by simpa using he),
      powerHeld_of_answer hp]
    simp [respond, emit, rollback_eq, registerHandler_eq, hh]
  case timing =>
    refine ⟨unsolvedTiming s.draws (s.draws + 1) (s.draws + 2) (s.draws + 3) (s.draws + 4), s.draws + 14, rfl, ?_⟩
    rw [exec_enable_handler_free ho hclk hfmt hreq hp hh, enableChannel_unsatisfiable (by simpa using hw) hr,
      writeFormat_eq, powerHeld_of_answer hp]
    simp [respond, emit, rollback_eq, registerHandler_eq, hh, clearConverted, channelOffset]

/-- Settles O52: each way ENABLE can end leaves these components alone. -/
theorem enableCompletesOnAnyAnswer : Obligations.EnableCompletesOnAnyAnswer := by
  intro n m s ho hclk hfmt hreq
  obtain ⟨clk, hclk⟩ := Option.isSome_iff_exists.mp hclk
  obtain ⟨fmt, hfmt⟩ := Option.isSome_iff_exists.mp hfmt
  obtain ⟨req, hreq⟩ := Option.isSome_iff_exists.mp hreq
  rw [exec_enable_loaded ho hclk hfmt hreq]
  obtain ⟨timing, f, mode, en, reg, refs, oks, d, es, ⟨hpixel, hregs⟩, he⟩ := enableBody_frame n fmt req clk s
  exact ⟨_, he, rfl, rfl, rfl, rfl, rfl, rfl, rfl, rfl, rfl, hpixel, rfl,
    fun hm => ⟨PerChannel.get_set_other _ hm _, hregs m hm⟩⟩

/-- Settles O53. -/
theorem disableTearsDown : Obligations.DisableTearsDown := by
  intro s ho
  rw [exec_disable ho, teardown_eq]
  by_cases hp : s.powerRefs = 0
  · simp [respond, emit, hp]
  · simp [respond, emit, hp, Nat.pos_of_ne_zero hp]

end Sys2Proof.Machine
end

section
/-! What a contract violation and a set `fault` change: how each operation ends where its behaviour is specified, with and
without the sticky bit, and which steps set the bit (spec/60_exceptions.md R262, R263, R265). -/

namespace Sys2Proof.Machine

/-! ## The violation (R262) -/

/-- Every lock-requiring operation checks the lock first (R265, R270). -/
theorem exec_violation {i : Instr} {s : State} (hi : needsLock i = true) (ho : ¬ s.issuerHolds) :
    exec i s = .next (setFault s) := by
  cases i with
  | lock | unlock | setclk | setreq | setfmt | sette => cases hi
  | _ =>
    simp only [exec, execEnable, execDisable, execConfigure, execSolve, execWrcmd, execWrdata, execRddata, execXfer,
      withStream, withLock_other ho]

/-! ## The stream check (43_transfer_engine.md R191) -/

theorem streamCheck_eq_noMode_iff {mode : Option ParMode} {len : Nat} : streamCheck mode len = .noMode ↔ mode = none := by
  rcases mode with _ | _ | _ | _ | _
  case some.m16 => rcases Nat.mod_two_eq_zero_or_one len with h | h <;> simp [streamCheck, h]
  all_goals simp [streamCheck]

/-! ## Accesses and calls do not read `fault` (R262) -/

theorem envPower_setFault (s : State) : envPower (setFault s) = ((envPower s).1, setFault (envPower s).2) := by
  unfold envPower
  rw [setFault_powerAnswers]
  cases s.powerAnswers <;> rfl

theorem acquirePower_setFault (s : State) :
    acquirePower (setFault s) = ((acquirePower s).1, setFault (acquirePower s).2) := by
  rw [acquirePower, envPower_setFault]
  rfl

theorem powerHeld_setFault (s : State) : powerHeld (setFault s) = setFault (powerHeld s) := by
  rw [powerHeld, acquirePower_setFault]
  rfl

theorem writeFormat_setFault (n : Channel) (w : FormatWords) (s : State) :
    writeFormat n w (setFault s) = setFault (writeFormat n w s) := by
  rw [writeFormat_eq, writeFormat_eq]
  rfl

/-- For the state with `solved` loaded, as SolveBody passes it on (42_timing_solver.md R175). -/
theorem writeTiming_setFault (n : Channel) (timing : SolvedTiming) (solved : PerChannel SolvedTiming) (s : State) :
    writeTiming n timing { setFault s with solved := solved }
      = setFault (writeTiming n timing { s with solved := solved }) := by
  rw [writeTiming_eq, writeTiming_eq]
  rfl

theorem teardown_setFault (s : State) : teardown (setFault s) = setFault (teardown s) := by
  rw [teardown_eq, teardown_eq]
  rfl

theorem envRead_setFault (s : State) : envRead (setFault s) = ((envRead s).1, setFault (envRead s).2) := by
  unfold envRead
  rw [setFault_readAnswers]
  cases s.readAnswers <;> rfl

theorem regWrite_setFault (r : Reg) (v : Word) (s : State) : regWrite r v (setFault s) = setFault (regWrite r v s) := rfl

theorem readUnit_setFault (s : State) : readUnit (setFault s) = ((readUnit s).1, setFault (readUnit s).2) := by
  rw [readUnit, regWrite_setFault, regRead, regValue, envRead_setFault]
  rfl

theorem readUnits_setFault (u : UnitSize) (k : Nat) (s : State) :
    readUnits u k (setFault s) = ((readUnits u k s).1, setFault (readUnits u k s).2) := by
  induction k generalizing s with
  | zero => rfl
  | succ k ih => simp only [readUnits, readUnit_setFault, ih]

theorem writeUnits_setFault (r : Reg) (ws : List Word) (s : State) :
    writeUnits r ws (setFault s) = setFault (writeUnits r ws s) := by
  induction ws generalizing s with
  | nil => rfl
  | cons w ws ih => rw [writeUnits, writeUnits, regWrite_setFault, ih]

/-! ## Execution goes on with `fault` set (R262) -/

/-- `f` ends in a next state from `s`, and with `fault` set beforehand it ends in the same state but for `fault`. -/
def GoesOnWithFault (f : State → Result) (s : State) : Prop := ∃ t, f s = .next t ∧ f (setFault s) = .next (setFault t)

section
variable {n : Channel} {s : State}

/-- A stream with a mode answers its failed check, or its body runs. -/
theorem withStream_goesOnWithFault {len : Nat} {body : UnitSize → State → Result} (ho : s.issuerHolds)
    (hmode : s.parMode.isSome = true) (hbody : ∀ u, GoesOnWithFault (body u) s) :
    GoesOnWithFault (withStream len body) s := by
  cases hc : streamCheck s.parMode len with
  | stop e => exact ⟨_, withStream_stop ho hc, withStream_stop (s := setFault s) ho hc⟩
  | noMode =>
    rw [streamCheck_eq_noMode_iff.mp hc] at hmode
    cases hmode
  | go u =>
    obtain ⟨t, ht, ht'⟩ := hbody u
    exact ⟨t, (withStream_go ho hc).trans ht, (withStream_go (s := setFault s) ho hc).trans ht'⟩

theorem enableChannel_goesOnWithFault (fmt : BusFormat) (req : TimingReq) (clk : ClockContext) :
    GoesOnWithFault (enableChannel n fmt req clk) s := by
  cases hw : formatWords s.params.layout fmt.depth.toNat fmt.lines.toNat with
  | error e => exact ⟨_, enableChannel_format_refused hw, enableChannel_format_refused (s := setFault s) hw⟩
  | ok w =>
    cases hr : solve req clk.periodPs Config.maxDiv with
    | none =>
      refine ⟨_, enableChannel_unsatisfiable hw hr, ?_⟩
      rw [enableChannel_unsatisfiable (s := setFault s) hw hr, writeFormat_setFault]
      rfl
    | some r =>
      refine ⟨_, enableChannel_solved hw hr, ?_⟩
      rw [enableChannel_solved (s := setFault s) hw hr, writeFormat_setFault, writeTiming_setFault]
      rfl

theorem enableBody_goesOnWithFault (fmt : BusFormat) (req : TimingReq) (clk : ClockContext) :
    GoesOnWithFault (enableBody n fmt req clk) s := by
  have hanswer : (envPower (setFault s)).1 = (envPower s).1 := by
    rw [envPower_setFault]
  cases hpower : (envPower s).1 with
  | false =>
    refine ⟨_, enableBody_power_refused n fmt req clk hpower, ?_⟩
    rw [enableBody_power_refused n fmt req clk (hanswer.trans hpower), acquirePower_setFault]
    rfl
  | true =>
    cases hhandler : s.handlerRegistered with
    | true =>
      refine ⟨_, enableBody_handler_taken n fmt req clk hpower hhandler, ?_⟩
      rw [enableBody_handler_taken n fmt req clk (hanswer.trans hpower) hhandler, powerHeld_setFault]
      rfl
    | false =>
      rw [GoesOnWithFault, enableBody_handler_free n fmt req clk hpower hhandler,
        enableBody_handler_free n fmt req clk (hanswer.trans hpower) hhandler, powerHeld_setFault]
      exact enableChannel_goesOnWithFault fmt req clk

end

/-- Where an operation's behaviour is specified, it completes, and a set `fault` changes nothing of it. -/
theorem exec_goesOnWithFault {i : Instr} {s : State} (h : specified i s) : GoesOnWithFault (exec i) s := by
  by_cases hviolation : needsLock i = true ∧ ¬ s.issuerHolds
  · obtain ⟨hi, ho⟩ := hviolation
    exact ⟨_, exec_violation hi ho, exec_violation (s := setFault s) hi ho⟩
  have hloaded : loadedFor i s = true := h.resolve_right hviolation
  have hholds : needsLock i = true → s.issuerHolds := not_and_not_right.mp hviolation
  cases i with
  | lock =>
    cases ho : s.owner with
    | none => exact ⟨_, exec_lock_free ho, exec_lock_free (s := setFault s) ho⟩
    | some o => exact ⟨_, exec_lock_taken ho, exec_lock_taken (s := setFault s) ho⟩
  | unlock =>
    by_cases ho : s.issuerHolds
    · exact ⟨_, exec_unlock_holder ho, exec_unlock_holder (s := setFault s) ho⟩
    · exact ⟨_, exec_unlock_other ho, exec_unlock_other (s := setFault s) ho⟩
  | enable n =>
    simp only [loadedFor, Bool.and_eq_true, Option.isSome_iff_exists] at hloaded
    obtain ⟨⟨⟨clk, hclk⟩, fmt, hfmt⟩, req, hreq⟩ := hloaded
    have ho := hholds rfl
    rw [GoesOnWithFault, exec_enable_loaded ho hclk hfmt hreq,
      exec_enable_loaded (s := setFault s) ho hclk hfmt hreq]
    exact enableBody_goesOnWithFault fmt req clk
  | disable =>
    refine ⟨_, exec_disable (hholds rfl), ?_⟩
    rw [exec_disable (s := setFault s) (hholds rfl), teardown_setFault]
    rfl
  | setclk rate => exact ⟨_, exec_setclk_accepted hloaded s, exec_setclk_accepted hloaded (setFault s)⟩
  | setreq n req => exact ⟨_, exec_setreq n req s, exec_setreq n req (setFault s)⟩
  | setfmt n depth lines => exact ⟨_, exec_setfmt n depth lines s, exec_setfmt n depth lines (setFault s)⟩
  | sette flag => exact ⟨_, exec_sette flag s, exec_sette flag (setFault s)⟩
  | configure n depth lines =>
    have ho := hholds rfl
    cases hw : formatWords s.params.layout depth.toNat lines.toNat with
    | error e => exact ⟨_, exec_configure_refused ho hw, exec_configure_refused (s := setFault s) ho hw⟩
    | ok w =>
      refine ⟨_, exec_configure_accepted ho hw, ?_⟩
      rw [exec_configure_accepted (s := setFault s) ho hw, writeFormat_setFault]
      rfl
  | solve n =>
    simp only [loadedFor, Bool.and_eq_true, Option.isSome_iff_exists] at hloaded
    obtain ⟨⟨clk, hclk⟩, req, hreq⟩ := hloaded
    have ho := hholds rfl
    cases hr : solve req clk.periodPs Config.maxDiv with
    | none => exact ⟨_, exec_solve_unmet ho hclk hreq hr, exec_solve_unmet (s := setFault s) ho hclk hreq hr⟩
    | some r =>
      refine ⟨_, exec_solve_met ho hclk hreq hr, ?_⟩
      rw [exec_solve_met (s := setFault s) ho hclk hreq hr, writeTiming_setFault]
      rfl
  | wrcmd bytes =>
    exact withStream_goesOnWithFault (hholds rfl) hloaded fun u =>
      ⟨_, rfl, congrArg (finish .ok) (writeUnits_setFault .cmd (streamUnits u bytes) s)⟩
  | wrdata bytes =>
    exact withStream_goesOnWithFault (hholds rfl) hloaded fun u =>
      ⟨_, rfl, congrArg (finish .ok) (writeUnits_setFault .data (streamUnits u bytes) s)⟩
  | rddata len =>
    refine withStream_goesOnWithFault (hholds rfl) hloaded fun u => ⟨_, rfl, ?_⟩
    simp only [readUnits_setFault]
    rfl
  | xfer width height callback =>
    have ho := hholds rfl
    cases hp : s.xferPending with
    | false => exact ⟨_, exec_xfer_accepted ho hp, exec_xfer_accepted (s := setFault s) ho hp⟩
    | true => exact ⟨_, exec_xfer_pending ho hp, exec_xfer_pending (s := setFault s) ho hp⟩

/-! ## Outside the specified behaviour (93_implementation_defined.md U1 to U3) -/

theorem exec_refused_of_not_specified {i : Instr} {s : State} (h : ¬ specified i s) : ∃ why, exec i s = .refused why := by
  obtain ⟨hloaded, hviolation⟩ := not_or.mp h
  have hholds : needsLock i = true → s.issuerHolds := not_and_not_right.mp hviolation
  cases i with
  | setclk rate => exact ⟨_, exec_setclk_refused hloaded s⟩
  | enable n =>
    simp only [loadedFor, Bool.and_eq_true, Option.isSome_iff_ne_none] at hloaded
    exact ⟨_, exec_enable_unloaded (hholds rfl) (by tauto)⟩
  | solve n =>
    simp only [loadedFor, Bool.and_eq_true, Option.isSome_iff_ne_none] at hloaded
    exact ⟨_, exec_solve_unloaded (hholds rfl) (by tauto)⟩
  | wrcmd | wrdata | rddata =>
    simp only [exec, execWrcmd, execWrdata, execRddata]
    exact ⟨_, withStream_noMode (hholds rfl) (Option.not_isSome_iff_eq_none.mp hloaded)⟩
  | _ => exact absurd rfl hloaded

theorem specified_of_exec_next {i : Instr} {s t : State} (h : exec i s = .next t) : specified i s := by
  by_contra hnot
  obtain ⟨why, hwhy⟩ := exec_refused_of_not_specified hnot
  rw [h] at hwhy
  cases hwhy

/-! ## What sets and clears `fault` (R262, R263) -/

/-- An operation leaves `fault`, or sets it by the violation. -/
theorem Effect.fault_cases {i : Instr} {s t : State} (h : Effect s i t) :
    t.fault = s.fault ∨ (needsLock i = true ∧ ¬ s.issuerHolds ∧ t.fault = true) := by
  cases h with
  | violation hi ho => exact .inr ⟨hi, ho, rfl⟩
  | tearsDown => exact .inl (by simp [teardown_eq])
  | configures => exact .inl (by simp [writeFormat_eq])
  | solves => exact .inl (by simp [writeTiming_eq])
  | startsTransfer => exact .inl (by simp [writeTransfer_eq])
  | _ => exact .inl rfl

theorem Serves.fault_eq {s u : State} {r : Nat} {i : Instr} (h : Serves s r i u) : u.fault = s.fault := by
  obtain ⟨ts, rest, -, -, -, -, rfl⟩ := h
  rfl

/-- All a step can do to `fault`: leave it, set it for a requester that violates the contract, or clear it by a reset. -/
theorem step_fault_cases {s t : State} (hstep : step s = .next t) :
    t.fault = s.fault
      ∨ (t.fault = true ∧ ∃ r i u, Serves s r i u ∧ needsLock i = true ∧ s.owner ≠ some r)
      ∨ (s.schedule.head? = some .reset ∧ t.fault = false) := by
  rcases step_effect hstep with
    ⟨ts, es, r, ports, rfl⟩ | ⟨r, i, u, hserves, heff⟩ | ⟨w, ts, -, -, -, rfl⟩ | ⟨ts, -, rfl⟩ | ⟨ts, hs, rfl⟩
  · exact .inl rfl
  · rcases heff.fault_cases with hkeeps | ⟨hi, ho, ht⟩
    · exact .inl (hkeeps.trans hserves.fault_eq)
    · obtain ⟨hissuer, howner, -, -⟩ := hserves.controller_eq
      rw [State.issuerHolds, howner, hissuer] at ho
      exact .inr (.inl ⟨ht, r, i, u, hserves, hi, ho⟩)
  · exact .inl rfl
  · exact .inl (by rw [completionStep_eq])
  · exact .inr (.inr ⟨by rw [hs]; rfl, rfl⟩)

end Sys2Proof.Machine
end

section
/-! An illegal packet, and what a requester without the lock can do (spec/60_exceptions.md R260, R270, R271). -/

namespace Sys2Proof.Machine

/-! ## An illegal packet (R108, R260) -/

/-- A requester of the block that waits for nothing and presents an illegal packet has it consumed. -/
theorem fetch_eq_illegal {r : Nat} {s : State} {why : Illegal} {rest : List Word} (hport : r < s.params.nReq)
    (hwaiting : r ∉ s.waiting) (hdecode : decode (s.portWords r) = .illegal why rest) :
    fetch r s = .illegal (takePacket r rest s) := by
  rw [fetch, if_neg (Nat.not_le.mpr hport), if_neg hwaiting, hdecode]

/-! ## Nothing but responses (R271) -/

/-- The register file is the same, and the only events between are responses that carry no data. -/
def OnlyAnswers (s t : State) : Prop :=
  t.regs = s.regs ∧ ∃ es, t.trace = s.trace ++ es ∧ ∀ e ∈ es, ∃ q st, e = .resp q st []

theorem OnlyAnswers.silent {s t : State} (hregs : t.regs = s.regs) (htrace : t.trace = s.trace) : OnlyAnswers s t :=
  ⟨hregs, [], by rw [htrace, List.append_nil], by simp⟩

theorem OnlyAnswers.respond {s t : State} (hregs : t.regs = s.regs) (htrace : t.trace = s.trace) (status : Status) :
    OnlyAnswers s (respond status [] t) :=
  ⟨hregs, [.resp t.issuer status []], by rw [respond_trace, htrace], by simp⟩

/-- An operation that needs no lock reaches no register, whoever issues it (40_setup.md R135, 44_bus_controller.md R221,
R222). -/
theorem exec_onlyAnswers_of_needs_no_lock {i : Instr} {s t : State} (hi : needsLock i = false) (h : exec i s = .next t) :
    OnlyAnswers s t := by
  cases i with
  | lock =>
    cases ho : s.owner with
    | none => rw [exec_lock_free ho] at h; cases h; exact .respond rfl rfl .ok
    | some o => rw [exec_lock_taken ho] at h; cases h; exact .silent rfl rfl
  | unlock =>
    by_cases ho : s.issuerHolds
    · rw [exec_unlock_holder ho] at h; cases h; exact .respond rfl rfl .ok
    · rw [exec_unlock_other ho] at h; cases h; exact .respond rfl rfl .ok
  | setclk rate =>
    by_cases hr : rateInRange rate = true
    · rw [exec_setclk_accepted hr] at h; cases h; exact .respond rfl rfl .ok
    · rw [exec_setclk_refused hr] at h; cases h
  | setreq n req => rw [exec_setreq] at h; cases h; exact .respond rfl rfl .ok
  | setfmt n depth lines => rw [exec_setfmt] at h; cases h; exact .respond rfl rfl .ok
  | sette flag => rw [exec_sette] at h; cases h; exact .respond rfl rfl .ok
  | _ => cases hi

/-- An operation of a requester that does not hold the lock reaches no register: it needs no lock, or it is a violation. -/
theorem exec_onlyAnswers_of_not_holder {i : Instr} {s t : State} (ho : ¬ s.issuerHolds) (h : exec i s = .next t) :
    OnlyAnswers s t := by
  cases hi : needsLock i with
  | false => exact exec_onlyAnswers_of_needs_no_lock hi h
  | true =>
    rw [exec_violation hi ho] at h
    cases h
    exact .silent rfl rfl

end Sys2Proof.Machine
end

section
/-! The statements of the family 60_exceptions.md: violations, the sticky fault, non-holders, and where operations complete. -/

namespace Sys2Proof.Machine

/-- Settles O19. -/
theorem completesExactlyWhereSpecified : Obligations.CompletesExactlyWhereSpecified := by
  refine fun i s => ⟨fun h => ?_, exec_refused_of_not_specified⟩
  obtain ⟨t, ht, -⟩ := exec_goesOnWithFault h
  exact ⟨t, ht⟩

/-- Settles O16: the violation, the stickiness, and that execution goes on. -/
theorem violationSetsStickyFault : Obligations.ViolationSetsStickyFault := by
  refine ⟨fun i s => exec_violation, ?sticky, ?goesOn⟩
  case sticky =>
    intro s t hstep hfault hr
    rcases step_fault_cases hstep with hkeeps | ⟨ht, -⟩ | ⟨hreset, -⟩
    · exact hkeeps.trans hfault
    · exact ht
    · exact absurd hreset hr
  case goesOn =>
    intro i s t h
    obtain ⟨t', ht', hfault⟩ := exec_goesOnWithFault (specified_of_exec_next h)
    rw [h] at ht'
    cases ht'
    exact hfault

/-- Settles O17. -/
theorem faultOnlyByNonHolder : Obligations.FaultOnlyByNonHolder := by
  intro s t hstep hclear hset
  rcases step_fault_cases hstep with hkeeps | ⟨-, hviolation⟩ | ⟨-, hreset⟩
  · exact absurd (hkeeps.trans hclear) (by rw [hset]; decide)
  · exact hviolation
  · exact absurd hreset (by rw [hset]; decide)

/-- Settles O18. -/
theorem nonHolderReachesNoRegister : Obligations.NonHolderReachesNoRegister := by
  intro s t r hserve ho hstep
  obtain ⟨ts, hs⟩ := List.head?_eq_some_iff.mp hserve
  rw [step_of_schedule hs, turn, serve] at hstep
  split at hstep
  · next i u hf =>
    obtain ⟨-, -, rest, -, rfl⟩ := fetch_run hf
    exact exec_onlyAnswers_of_not_holder (s := takePacket r rest { s with schedule := ts }) ho hstep
  · next u hf =>
    obtain ⟨-, -, why, rest, -, rfl⟩ := fetch_illegal hf
    cases hstep
    exact OnlyAnswers.respond rfl rfl .illegalCommand
  · cases hstep

/-- Settles O9. -/
theorem illegalPacketAnswered : Obligations.IllegalPacketAnswered := by
  intro s r ts why rest hs hport hwaiting hdecode
  have hfetch : fetch r { s with schedule := ts } = .illegal (takePacket r rest { s with schedule := ts }) :=
    fetch_eq_illegal hport hwaiting hdecode
  rw [step_of_schedule hs, turn, serve, hfetch]
  rfl

end Sys2Proof.Machine
end

section
/-! The statement of the family 70_reset_and_hazards.md: CONTROL's ITE bit, once set, outlives everything but a reset (R310). -/

namespace Sys2Proof.Machine

/-- None of the writes an operation can make to CONTROL clears ITE: the formatter's do not reach bit 4 (R147) and XFER's only
sets bits (R204). -/
theorem exec_keeps_ite {i : Instr} {s t : State} (he : exec i s = .next t) (hite : s.regs.control.getLsbD 4 = true) :
    t.regs.control.getLsbD 4 = true := by
  have hreselect (n : Channel) : (controlSelected (setField s.regs.control 3 2 0) n).getLsbD 4 = true := by
    rwa [reselect_other_bits _ n (by decide) (by decide) (by decide)]
  rcases exec_control he with hc | ⟨-, ⟨n, _, _, -, hc⟩ | ⟨n, -, hc⟩ | ⟨_, _, _, -, hc⟩⟩ <;> rw [hc]
  · exact hite
  · exact hreselect n
  · exact hreselect n
  · rw [controlStarted_getLsbD, hite]
    rfl

/-- FRAME_DONE clears ENABLE and no other bit of CONTROL (R208). -/
theorem completionStep_other_bits (s : State) {i : Nat} (h : i ≠ 0) :
    (completionStep s).regs.control.getLsbD i = s.regs.control.getLsbD i := by
  rw [completionStep_eq]
  exact clearEnable_other_bits s.regs.control h

/-- Settles O49. -/
theorem iteNeverCleared : Obligations.IteNeverCleared := by
  intro s t hstep hnoReset hite
  rcases step_next hstep with ⟨-, rfl⟩ | ⟨u, ts, hs, hturn⟩
  · exact hite
  · rcases hturn with ⟨r, i, s', -, hf, he⟩ | ⟨r, s', -, hf, rfl⟩ | ⟨w, -, hg⟩ | ⟨-, rfl⟩ | ⟨rfl, -⟩
    · obtain ⟨-, -, rest, -, rfl⟩ := fetch_run hf
      exact exec_keeps_ite he hite
    · obtain ⟨-, -, _, _, -, rfl⟩ := fetch_illegal hf
      exact hite
    · obtain ⟨-, -, rfl⟩ := grantStep_next hg
      exact hite
    · rwa [completionStep_other_bits _ (by decide)]
    · exact absurd (by rw [hs]; rfl) hnoReset

end Sys2Proof.Machine
end


section
/-! The reset table, in the initial state and after a reset event (spec/10_state.md R52, spec/70_reset_and_hazards.md R290,
R291). -/

namespace Sys2Proof.Machine

/-- Every value R52 gives holds whatever the parameters and whatever the draws for the components it leaves unspecified. -/
theorem afterReset_resetTable (p : Params) (d : Nat) : ResetTable (State.afterReset p d) where
  clk := rfl
  req := fun n => by cases n <;> rfl
  fmt := fun n => by cases n <;> rfl
  teActive := rfl
  converted := fun n => by cases n <;> rfl
  parMode := rfl
  owner := rfl
  enabled := rfl
  handlerRegistered := rfl
  powerRefs := rfl
  xferPending := rfl
  pendingCb := rfl
  fault := rfl
  waiting := rfl
  revision := rfl
  control := rfl
  trace := rfl

/-- The fields a reset event carries over from `s` (log 17) are no components of the table. -/
theorem resetEvent_resetTable (s : State) : ResetTable (resetEvent s) :=
  { afterReset_resetTable s.params s.draws with }

theorem step_of_reset {s : State} {ts : List Turn} (hs : s.schedule = .reset :: ts) :
    step s = .next (resetEvent { s with schedule := ts }) := by
  rw [step_of_schedule hs, turn]

/-- Settles O11: both states are instances of the table, and the reset event copies the parameters and the inputs. -/
theorem resetLeavesTheTable : Obligations.ResetLeavesTheTable := by
  refine ⟨afterReset_resetTable defaultParams 0, ?_⟩
  intro s ts hs
  exact ⟨_, step_of_reset hs, resetEvent_resetTable _, rfl, rfl, rfl⟩

end Sys2Proof.Machine
end
